-- ==== Sys2Proof/Word.lean ====
section
/-!
DEFINITION. The widths of CVDCORE's values (00_scope R9, R10, R11). That the four widths of R10 are types, and not fields
of the configuration record, is the model's choice (DESIGN CHOICE, log 15).
-/
namespace Sys2Proof

/-- A byte of the transport (00_scope R11). -/
abbrev Byte := BitVec 8

/-- A command word: `CMD_BITS` = 32 (00_scope R10, 30_encoding R70). -/
abbrev CmdWord := BitVec 32

/-- The 16-bit device word `W = msb ∥ lsb` (20_memory R57). -/
abbrev DevWord := BitVec 16

/-- A RawCode: `RAW_BITS` = 15 (00_scope R9). -/
abbrev RawCode := BitVec 15

/-- A ScaledResistance: `RES_BITS` = 32, signed (00_scope R10). -/
abbrev Resistance := BitVec 32

/-- A Temperature: `TEMP_BITS` = 16, signed (00_scope R10). -/
abbrev Temperature := BitVec 16

/-- A wide value: `WIDE_BITS` = 64, signed two's complement (00_scope R9, R18). -/
abbrev Wide := BitVec 64

/-- A read response: `RSP_BITS` = 64 (00_scope R10). -/
abbrev Response := BitVec 64

end Sys2Proof
end

