-- ==== Sys2Proof/Syntax.lean ====
section
/-!
DEFINITION. The commands of CVDCORE, one constructor for each row of the opcode map (30_encoding R73).
-/
namespace Sys2Proof

/-- The sixteen commands with the operands of 30_encoding R72. -/
inductive Instr where
  /-- `NOP`, 41_scaler_and_moves R110. -/
  | nop
  /-- `RST`, 41_scaler_and_moves R111. -/
  | rst
  /-- `INIT`, 40_decoder R93. -/
  | init
  /-- `RDRTD`, 40_decoder R94. -/
  | rdrtd
  /-- `DEC msb, lsb`, 40_decoder R95. -/
  | dec (msb lsb : Byte)
  /-- `SCALE`, 41_scaler_and_moves R113. -/
  | scale
  /-- `SETR imm`, 41_scaler_and_moves R114. -/
  | setr (imm : BitVec 24)
  /-- `SETT imm`, 41_scaler_and_moves R115. -/
  | sett (imm : BitVec 24)
  /-- `BSEL`, 43_rootfinder R151. -/
  | bsel
  /-- `EST`, 43_rootfinder R153. -/
  | est
  /-- `EVAL`, 42_evaluator R136. -/
  | eval
  /-- `NRIT`, 43_rootfinder R157. -/
  | nrit
  /-- `CLMP`, 43_rootfinder R158. -/
  | clmp
  /-- `CVT`, 44_converter R171. -/
  | cvt
  /-- `MEAS`, 44_converter R172. -/
  | meas
  /-- `RD reg`, 41_scaler_and_moves R116; `reg` is the four-bit field, of which 8 to 15 are reserved. -/
  | rd (reg : BitVec 4)
deriving DecidableEq, Repr

/-- The three pseudo-commands of the assembler (30_encoding R82). -/
inductive Pseudo where
  | clrf
  | conv (imm : BitVec 24)
  | rdall
deriving DecidableEq, Repr

end Sys2Proof
end

