-- ==== Sys2Proof/WellFormed.lean ====
section
/-!
DEFINITION. Which commands the encoding admits: everything but a read of a reserved register index.
-/
namespace Sys2Proof

/-- The operands have an encoding: only `RD` has a value of its field that is reserved, an index of 8 or
more (30_encoding R76: Format I has no reserved bits; R77: `reg` 8 to 15 is reserved). -/
def Instr.WellFormed : Instr → Bool
  | .rd reg => decide (reg.toNat < 8)
  | .nop | .rst | .init | .rdrtd | .dec _ _ | .scale | .setr _ | .sett _ | .bsel | .est | .eval | .nrit
  | .clmp | .cvt | .meas => true

end Sys2Proof
end

