-- ==== Sys2Proof/Decode.lean ====
section
/-!
DEFINITION. Decoding and encoding of command words (30_encoding R70 to R83).
-/
namespace Sys2Proof

/-- Why a word is reserved, one name for each of 30_encoding R75, R76, R77. -/
inductive Reserved where
  /-- R75: the opcode is 0x10 to 0xFF. -/
  | opcode
  /-- R76: an operand bit that must be zero is not. -/
  | operandBits
  /-- R77: an `RD` of register index 8 to 15. -/
  | registerIndex
deriving DecidableEq, Repr

/-- What a word decodes to: it is legal or it is reserved (30_encoding R78). -/
inductive Decoded where
  | legal (i : Instr)
  | reserved (why : Reserved)
deriving DecidableEq, Repr

/-! ### The fields of a command word (30_encoding R70, R71) -/

/-- `op = cmd[31:24]`. -/
def opField (w : CmdWord) : BitVec 8 := w.extractLsb' 24 8

/-- `cmd[23:0]`: zero in Format Z, `imm24` in Format I. -/
def operandField (w : CmdWord) : BitVec 24 := w.extractLsb' 0 24

/-- `cmd[23:16]`, zero in Format B. -/
def zeroFieldB (w : CmdWord) : BitVec 8 := w.extractLsb' 16 8

/-- `msb = cmd[15:8]` of Format B. -/
def msbField (w : CmdWord) : Byte := w.extractLsb' 8 8

/-- `lsb = cmd[7:0]` of Format B. -/
def lsbField (w : CmdWord) : Byte := w.extractLsb' 0 8

/-- `cmd[23:4]`, zero in Format R. -/
def zeroFieldR (w : CmdWord) : BitVec 20 := w.extractLsb' 4 20

/-- `reg = cmd[3:0]` of Format R. -/
def regField (w : CmdWord) : BitVec 4 := w.extractLsb' 0 4

/-! ### Decoding (30_encoding R83) -/

/-- A Format Z word of command `i` (30_encoding R71, R76). -/
def decodeZ (i : Instr) (w : CmdWord) : Decoded :=
  if operandField w = 0#24 then .legal i else .reserved .operandBits

/-- A Format B word, `DEC` (30_encoding R71, R76). -/
def decodeB (w : CmdWord) : Decoded :=
  if zeroFieldB w = 0#8 then .legal (.dec (msbField w) (lsbField w)) else .reserved .operandBits

/-- A Format R word, `RD` (30_encoding R71, R76, R77). -/
def decodeR (w : CmdWord) : Decoded :=
  if zeroFieldR w = 0#20 then
    if (regField w).toNat < 8 then .legal (.rd (regField w)) else .reserved .registerIndex
  else .reserved .operandBits

/-- The decoder (30_encoding R73, R83): total, and it reads no state. -/
def decode (w : CmdWord) : Decoded :=
  match (opField w).toNat with
  | 0x00 => decodeZ .nop w
  | 0x01 => decodeZ .rst w
  | 0x02 => decodeZ .init w
  | 0x03 => decodeZ .rdrtd w
  | 0x04 => decodeB w
  | 0x05 => decodeZ .scale w
  | 0x06 => .legal (.setr (operandField w))
  | 0x07 => .legal (.sett (operandField w))
  | 0x08 => decodeZ .bsel w
  | 0x09 => decodeZ .est w
  | 0x0A => decodeZ .eval w
  | 0x0B => decodeZ .nrit w
  | 0x0C => decodeZ .clmp w
  | 0x0D => decodeZ .cvt w
  | 0x0E => decodeZ .meas w
  | 0x0F => decodeR w
  | _ => .reserved .opcode

/-! ### Encoding (30_encoding R71, R73) -/

/-- The opcode of a command (30_encoding R73). -/
def opcodeOf : Instr → BitVec 8
  | .nop => 0x00#8
  | .rst => 0x01#8
  | .init => 0x02#8
  | .rdrtd => 0x03#8
  | .dec _ _ => 0x04#8
  | .scale => 0x05#8
  | .setr _ => 0x06#8
  | .sett _ => 0x07#8
  | .bsel => 0x08#8
  | .est => 0x09#8
  | .eval => 0x0A#8
  | .nrit => 0x0B#8
  | .clmp => 0x0C#8
  | .cvt => 0x0D#8
  | .meas => 0x0E#8
  | .rd _ => 0x0F#8

/-- The operand field of a command, in the layout of its format (30_encoding R71, R72). -/
def operandOf : Instr → BitVec 24
  | .dec msb lsb => 0#8 ++ msb ++ lsb
  | .setr imm => imm
  | .sett imm => imm
  | .rd reg => 0#20 ++ reg
  | .nop | .rst | .init | .rdrtd | .scale | .bsel | .est | .eval | .nrit | .clmp | .cvt | .meas => 0#24

/-- The word of a command (30_encoding R70). -/
def encode (i : Instr) : CmdWord := opcodeOf i ++ operandOf i

/-! ### The opcode map as a table (30_encoding R73) -/

/-- One row of the opcode map: `w` is the command when `w & mask = value`. -/
structure OpcodeRow where
  mnemonic : String
  value : CmdWord
  mask : CmdWord
deriving DecidableEq, Repr

/-- The row of each command, as 30_encoding R73 prints it. -/
def rowOf : Instr → OpcodeRow
  | .nop => ⟨"NOP", 0x00000000#32, 0xFFFFFFFF#32⟩
  | .rst => ⟨"RST", 0x01000000#32, 0xFFFFFFFF#32⟩
  | .init => ⟨"INIT", 0x02000000#32, 0xFFFFFFFF#32⟩
  | .rdrtd => ⟨"RDRTD", 0x03000000#32, 0xFFFFFFFF#32⟩
  | .dec _ _ => ⟨"DEC", 0x04000000#32, 0xFFFF0000#32⟩
  | .scale => ⟨"SCALE", 0x05000000#32, 0xFFFFFFFF#32⟩
  | .setr _ => ⟨"SETR", 0x06000000#32, 0xFF000000#32⟩
  | .sett _ => ⟨"SETT", 0x07000000#32, 0xFF000000#32⟩
  | .bsel => ⟨"BSEL", 0x08000000#32, 0xFFFFFFFF#32⟩
  | .est => ⟨"EST", 0x09000000#32, 0xFFFFFFFF#32⟩
  | .eval => ⟨"EVAL", 0x0A000000#32, 0xFFFFFFFF#32⟩
  | .nrit => ⟨"NRIT", 0x0B000000#32, 0xFFFFFFFF#32⟩
  | .clmp => ⟨"CLMP", 0x0C000000#32, 0xFFFFFFFF#32⟩
  | .cvt => ⟨"CVT", 0x0D000000#32, 0xFFFFFFFF#32⟩
  | .meas => ⟨"MEAS", 0x0E000000#32, 0xFFFFFFFF#32⟩
  | .rd _ => ⟨"RD", 0x0F000000#32, 0xFFFFFFF8#32⟩

/-- The sixteen rows of the opcode map (30_encoding R73). -/
def opcodeTable : List OpcodeRow :=
  [rowOf .nop, rowOf .rst, rowOf .init, rowOf .rdrtd, rowOf (.dec 0 0), rowOf .scale, rowOf (.setr 0),
   rowOf (.sett 0), rowOf .bsel, rowOf .est, rowOf .eval, rowOf .nrit, rowOf .clmp, rowOf .cvt, rowOf .meas,
   rowOf (.rd 0)]

/-- `w` matches a row of the opcode map (30_encoding R73). -/
def OpcodeRow.Matches (r : OpcodeRow) (w : CmdWord) : Prop := w &&& r.mask = r.value

/-! ### The host's reading of the table -/

/-- The command in the low `nbits` bits of `w`, numbered as spec/opcode_table.json numbers them; the bits
above are zero. A command word is a single unit with no byte order (20_memory R57). -/
def tableWord (nbits w : Nat) : CmdWord := BitVec.ofNat 32 (w % 2 ^ nbits)

/-- What the decoder reads from an instruction whose bits are `w`; `none` where the word is reserved. -/
def decodeTableWord (nbits w : Nat) : Option Instr :=
  match decode (tableWord nbits w) with
  | .legal i => some i
  | .reserved _ => none

end Sys2Proof
end

