-- ==== Sys2Proof/Machine/State.lean ====
section
/-!
DEFINITION. The state of CVDCORE (10_state R20), its reset values (R34), and the reasons a step can stop.
-/
namespace Sys2Proof.Machine

/-- One transport event (20_memory R52). -/
inductive Event where
  /-- `SEL`: the device select is asserted. -/
  | sel
  /-- `XFER(out, in)`: `sent` was sent and `got` came back in the same exchange. -/
  | xfer (sent got : Byte)
  /-- `DESEL`: the device select is released. -/
  | desel
deriving DecidableEq, Repr

/-- What the host can do to the block between two commands (70_reset_and_hazards R232). -/
inductive HostAction where
  /-- It gives one command word on the command port. -/
  | command (w : CmdWord)
  /-- It asserts the reset pin (70_reset_and_hazards R215, R216). -/
  | resetPin
deriving DecidableEq, Repr

/-- The state. The registers, flags, trace and select line are the spec's (10_state R20, R34); `responses`,
`pending`, `idx`, `draws` and `xfers` are the model's record of what passes over the ports (log 1, 2, 3). -/
structure State where
  /-- `RAW`, RawCode of the most recent decode (10_state R22). -/
  raw : RawCode
  /-- `RES`, ScaledResistance in hundredths of an ohm, signed (10_state R23). -/
  res : Resistance
  /-- `TEMP`, temperature in tenths of a degree Celsius, signed (10_state R24). -/
  temp : Temperature
  /-- `FAULT`, `STATUS[0]` (10_state R26). -/
  fault : Bool
  /-- `BR`, `STATUS[1]`: true is the positive branch (10_state R27). -/
  br : Bool
  /-- `ILL`, `STATUS[2]` (10_state R28). -/
  ill : Bool
  /-- `T`, the current estimate, signed (10_state R29). -/
  t : Wide
  /-- `F`, the last residual, signed (10_state R29). -/
  f : Wide
  /-- `D`, the last derivative, signed (10_state R29). -/
  d : Wide
  /-- `IT`, iterations since the last estimate (10_state R29). -/
  it : BitVec 3
  /-- Every transport event since reset, in order (10_state R20, 20_memory R52). -/
  trace : List Event
  /-- The device select line: true when asserted (20_memory R51, R54; log 6). -/
  sel : Bool
  /-- The responses given so far, in order (20_memory R67). -/
  responses : List Response
  /-- What the host will do next, first action first (70_reset_and_hazards R231, R232; log 3). -/
  pending : List HostAction
  /-- The model's command index (10_state R30): commands accepted so far (log 3). -/
  idx : Nat
  /-- The bytes the environment returns in the coming exchanges (20_memory R53; log 1). -/
  draws : List Byte
  /-- Exchanges made so far; it indexes `Config.freeDraw` (log 1). -/
  xfers : Nat
deriving DecidableEq, Repr

/-- The reset state (10_state R34): every register 0, every flag clear, the trace empty, the select released.
The model's own fields are empty or 0 (DESIGN CHOICE, log 2). -/
def State.reset : State where
  raw := 0
  res := 0
  temp := 0
  fault := false
  br := false
  ill := false
  t := 0
  f := 0
  d := 0
  it := 0
  trace := []
  sel := false
  responses := []
  pending := []
  idx := 0
  draws := []
  xfers := 0

/-- The reasons a step can stop with a fault. There is none: "The block never traps" (00_scope R15), and every
anomaly is handled in place (60_exceptions R185). Safe: no behaviour is cut short (log 8). -/
inductive Fault where
deriving DecidableEq, Repr

/-- The reasons a step can refuse. -/
inductive Refusal where
  /-- Raised by an arm of `exec` for a command that has no meaning yet. Safe: it proves nothing of the command.
  No arm raises it: all sixteen commands have their meaning. -/
  | notModelled (mnemonic : String)
deriving DecidableEq, Repr

/-- The outcome of a command or a step. -/
abbrev Result := Host.Outcome State Fault Refusal

end Sys2Proof.Machine
end

