-- ==== Sys2Proof/Machine/Operands.lean ====
section
/-!
DEFINITION. Operand forms: the assembly of immediates and device words (30_encoding R72, 20_memory R57) and the
register operand of `RD` (10_state R21).
-/
namespace Sys2Proof.Machine

/-- `sext_32(imm24)`, the operand of `SETR` (30_encoding R72). -/
def immRes (imm : BitVec 24) : Resistance := imm.signExtend 32

/-- `sext_64(imm24)`, the operand of `SETT` (30_encoding R72). -/
def immT (imm : BitVec 24) : Wide := imm.signExtend 64

/-- `W = msb ∥ lsb` (20_memory R57, 30_encoding R72). -/
def deviceWord (msb lsb : Byte) : DevWord := msb ++ lsb

/-- `raw = W[15:1]` of `DecodeWord` (40_decoder R90). -/
def rawOf (w : DevWord) : RawCode := w.extractLsb' 1 15

/-- `STATUS`: bit 0 `FAULT`, bit 1 `BR`, bit 2 `ILL` (10_state R21, R25). -/
def statusWord (s : State) : BitVec 3 := BitVec.ofBool s.ill ++ BitVec.ofBool s.br ++ BitVec.ofBool s.fault

/-- The response to a read of `x[reg]`, extended to 64 bits as 10_state R21 says for each register; `none` for the
reserved indices 8 to 15. -/
def readReg (reg : BitVec 4) (s : State) : Option Response :=
  match reg.toNat with
  | 0 => some (s.raw.setWidth 64)
  | 1 => some (s.res.signExtend 64)
  | 2 => some (s.temp.signExtend 64)
  | 3 => some ((statusWord s).setWidth 64)
  | 4 => some s.t
  | 5 => some s.f
  | 6 => some s.d
  | 7 => some (s.it.setWidth 64)
  | _ => none

end Sys2Proof.Machine
end

