-- ==== Sys2Proof/Config.lean ====
section
/-!
DEFINITION. The constants of CVDCORE: those the source fixes (00_scope R9), the configuration record of those
the spec decides (00_scope R10), and the one free value, the byte an exchange returns (20_memory R53).
-/
namespace Sys2Proof.Config

/-! ### Parameters fixed by the source (00_scope R9) -/

/-- Ice-point resistance, hundredths of an ohm; the branch threshold. -/
def R0C : Int := 10000
/-- Lower final clamp, tenths of a degree Celsius. -/
def TMIN : Int := -2000
/-- Upper final clamp and upper positive-branch clamp. -/
def TMAX : Int := 8500
/-- Lower positive-branch clamp. -/
def TPOS_LO : Int := 0
/-- Iterations of the positive branch. -/
def NPOS : Nat := 4
/-- Iterations of the negative branch. -/
def NNEG : Nat := 3
/-- Step gain of the negative branch. -/
def GNEG : Int := 10
/-- 100 degrees Celsius in tenths: the `(T − 100)` factor of the quartic term. -/
def TOFF : Int := 1000
/-- The byte the transport returns on a timeout; a value like any other (20_memory R53). -/
def TIMEOUT_SENTINEL : Byte := 0x00#8

/-! ### Parameters the spec decides (00_scope R10) -/

/-- The configuration record. It is fixed at build time and is no state (10_state R32 (c)). DESIGN CHOICE: it holds the
twelve values of 00_scope R10 that a rule computes with or sends; the four widths of R10 (`RES_BITS`, `TEMP_BITS`,
`CMD_BITS`, `RSP_BITS`) are types of Word.lean at their decided values and no fields of it (log 15). -/
structure Cfg where
  /-- Fixed-point scale of the polynomial. -/
  S : Int
  /-- Linear coefficient. -/
  A1 : Int
  /-- Quadratic coefficient. -/
  B2 : Int
  /-- Quartic coefficient numerator. -/
  C15 : Int
  /-- Divisor that brings `C15` products to scale `S`. -/
  CDIV : Int
  /-- `R0C · S`. -/
  R0S : Int
  /-- Reference resistor, hundredths of an ohm. -/
  RREF_C : Nat
  /-- The ADC's full-scale code. -/
  ADC_FS : Nat
  /-- Register-write opcode byte of the configuration write. -/
  CFG_WR_OP : Byte
  /-- Configuration byte. -/
  CFG_BYTE : Byte
  /-- Read opcode byte of the RTD read. -/
  RTD_RD_OP : Byte
  /-- Byte sent while a data byte is clocked in. -/
  DUMMY : Byte
deriving DecidableEq, Repr

/-- The decided values of 00_scope R10. UNVERIFIED: the spec marks some as general knowledge; unsafe against a
device built with others (log 9). -/
def cfg : Cfg where
  S := 100000000
  A1 := 390830000
  B2 := -5775
  C15 := -4183
  CDIV := 10000000
  R0S := 1000000000000
  RREF_C := 43000
  ADC_FS := 32768
  CFG_WR_OP := 0x80#8
  CFG_BYTE := 0xD0#8
  RTD_RD_OP := 0x01#8
  DUMMY := 0x00#8

/-- The constant divisors of 42_evaluator R137 (d) are not zero. -/
def Cfg.DivisorsNonzero (c : Cfg) : Prop := c.A1 ≠ 0 ∧ c.CDIV ≠ 0 ∧ c.CDIV / 10 ≠ 0 ∧ c.ADC_FS ≠ 0

/-- Every scaled code fits the 32-bit `RES` register, as it does with the decided values (41_scaler_and_moves R112;
log 16). -/
def Cfg.ScaledCodesFit (c : Cfg) : Prop := 32767 * c.RREF_C / c.ADC_FS < 2147483648

/-! ### The free value -/

/-- The byte that exchange number `n` returns where the environment's list `draws` says nothing: any value 0 to
255, constrained by no rule (20_memory R53). Safe: it has no body, so no proof can know it (log 1). -/
opaque freeDraw : Nat → Byte

end Sys2Proof.Config
end

