-- ==== Sys2Proof/Machine/Arith.lean ====
section
/-!
DEFINITION. The integer laws (00_scope R12, 42_evaluator R137): exact integers, wrapped to 64 bits where a rule
says so, division rounded toward zero, and the clamp.
-/
namespace Sys2Proof.Machine

/-- `wrap64(z)`: the one `y` with `−2^63 ≤ y < 2^63` and `y ≡ z (mod 2^64)` (00_scope R12). -/
def wrap64 (z : Int) : Int := z.bmod 18446744073709551616

/-- `tdiv(a, b)`: the quotient rounded toward zero, wrapped (00_scope R12, 42_evaluator R137 (c), (e)). Every rule
tests its divisor first; at `b = 0`, which the decided configuration never meets, it is 0 (log 10). -/
def tdiv (a b : Int) : Int := wrap64 (Int.tdiv a b)

/-- `clamp(v, lo, hi)` (00_scope R12). -/
def clamp (v lo hi : Int) : Int := if v < lo then lo else if v > hi then hi else v

/-- An integer into a 64-bit register: the low 64 bits of its two's complement form (42_evaluator R137 (a), (b)). -/
def toWide (z : Int) : Wide := BitVec.ofInt 64 z

/-- An integer into the 16-bit `TEMP` register (43_rootfinder R158). -/
def toTemp (z : Int) : Temperature := BitVec.ofInt 16 z

/-- A natural number into the 32-bit `RES` register (41_scaler_and_moves R113). With the decided configuration a scaled
code is at most 42998. DESIGN CHOICE: under a configuration in which one is wider than the register, which 00_scope R13
calls a rule error, this keeps its low 32 bits (log 16). -/
def toRes (n : Nat) : Resistance := BitVec.ofNat 32 n

end Sys2Proof.Machine
end

