-- ==== Sys2Proof/Machine/Flags.lean ====
section
/-!
DEFINITION. What sets each flag (10_state R25 to R28), and the `fault` pin.
-/
namespace Sys2Proof.Machine

/-- `flt = W[0]` of `DecodeWord` (40_decoder R90): the value of `FAULT` after a decode. -/
def faultOf (w : DevWord) : Bool := w.getLsbD 0

/-- `BranchOf(r)`: true, the positive branch, exactly when `r ≥ R0C`; the comparison is signed (43_rootfinder
R150). -/
def branchOf (r : Int) : Bool := decide (Config.R0C ≤ r)

/-- `N(b)`, the iteration bound of a branch (43_rootfinder R154). -/
def iterBound (b : Bool) : Nat := if b then Config.NPOS else Config.NNEG

/-- The `fault` output pin between commands (60_exceptions R194, R196). -/
def faultPin (s : State) : Bool := s.fault

end Sys2Proof.Machine
end

