-- ==== Sys2Proof/Machine/Polynomial.lean ====
section
/-!
DEFINITION. The pure functions of the Engine: scaler (41_scaler_and_moves R112), evaluator (42_evaluator R130 to
R135), initial estimate (43_rootfinder R152), iteration step (R155, R156), conversion (44_converter R170).
Each takes the configuration record, so that a claim can name it (00_scope R10).
-/
namespace Sys2Proof.Machine

/-- `Scale(raw) = floor(raw · RREF_C / ADC_FS)` (41_scaler_and_moves R112). -/
def scale (c : Config.Cfg) (raw : Nat) : Nat := raw * c.RREF_C / c.ADC_FS

/-- `Fpos(t, r)` (42_evaluator R132). -/
def fPos (c : Config.Cfg) (t r : Int) : Int := wrap64 (c.R0S + c.A1 * t + c.B2 * (t * t) - c.S * r)

/-- `Dpos(t)` (42_evaluator R133). -/
def dPos (c : Config.Cfg) (t : Int) : Int := wrap64 (c.A1 + 2 * c.B2 * t)

/-- `Cq(t)`, the quartic term at scale `S` (42_evaluator R134). -/
def cq (c : Config.Cfg) (t : Int) : Int := tdiv (wrap64 (c.C15 * (t - Config.TOFF) * (t * t * t))) c.CDIV

/-- `Fneg(t, r)` (42_evaluator R134). -/
def fNeg (c : Config.Cfg) (t r : Int) : Int :=
  wrap64 (c.R0S + c.A1 * t + c.B2 * (t * t) - c.S * r + cq c t)

/-- `Cd(t)`, the derivative of the quartic term, per whole degree (42_evaluator R135). -/
def cd (c : Config.Cfg) (t : Int) : Int :=
  tdiv (wrap64 (c.C15 * (4 * (t * t * t) - 3 * Config.TOFF * (t * t)))) (c.CDIV / 10)

/-- `Dneg(t)` (42_evaluator R135). -/
def dNeg (c : Config.Cfg) (t : Int) : Int := wrap64 (10 * c.A1 + 20 * c.B2 * t + cd c t)

/-- `Fb(t, r)` of branch `b` (42_evaluator R130). -/
def residualAt (c : Config.Cfg) (b : Bool) (t r : Int) : Int := if b then fPos c t r else fNeg c t r

/-- `Db(t)` of branch `b` (42_evaluator R130). -/
def derivativeAt (c : Config.Cfg) (b : Bool) (t : Int) : Int := if b then dPos c t else dNeg c t

/-- `e` of the initial estimate, before any clamp (43_rootfinder R152); the product is wrapped as 42_evaluator
R137 (b) says of every multiplication (log 13). -/
def linearEstimate (c : Config.Cfg) (r : Int) : Int := tdiv (wrap64 ((r - Config.R0C) * c.S)) c.A1

/-- `Estimate(b, r)`: clamped in the positive branch only (43_rootfinder R152). -/
def estimate (c : Config.Cfg) (b : Bool) (r : Int) : Int :=
  if b then clamp (linearEstimate c r) Config.TPOS_LO Config.TMAX else linearEstimate c r

/-- The new estimate of the positive branch before its clamp (43_rootfinder R155). -/
def rawStepPos (t f d : Int) : Int := wrap64 (t - tdiv f d)

/-- The new estimate of one iteration with residual `f` and nonzero derivative `d` (43_rootfinder R155, R156):
clamped in the positive branch, gain 10 and no clamp in the negative branch. -/
def stepEstimate (b : Bool) (t f d : Int) : Int :=
  if b then clamp (rawStepPos t f d) Config.TPOS_LO Config.TMAX
  else wrap64 (t - tdiv (wrap64 (Config.GNEG * f)) d)

/-- The shared final clamp (43_rootfinder R158). -/
def finalTemp (t : Int) : Int := clamp t Config.TMIN Config.TMAX

/-- At most `n` passes of a branch's loop in `Convert` (44_converter R170): a zero derivative leaves the loop in the
positive branch and skips the update in the negative one. -/
def convertPasses (c : Config.Cfg) (b : Bool) (r : Int) : Nat → Int → Int
  | 0, t => t
  | n + 1, t =>
    if derivativeAt c b t = 0 then
      if b then t else convertPasses c b r n t
    else convertPasses c b r n (stepEstimate b t (residualAt c b t r) (derivativeAt c b t))

/-- `Convert(r)`, a function of `r` alone (44_converter R170). -/
def convert (c : Config.Cfg) (r : Int) : Int :=
  finalTemp (convertPasses c (branchOf r) r (iterBound (branchOf r)) (estimate c (branchOf r) r))

end Sys2Proof.Machine
end

