-- ==== Sys2Proof/Machine/Ops.lean ====
section
/-!
DEFINITION. The named operations on State: register updates, transport primitives and sequences, the two
exceptional actions, resets, the host port, and the register effects of the Engine that single-step and composite
commands share.
-/
namespace Sys2Proof.Machine

/-! ### Updates of one register or port -/

/-- `RAW <- v`. -/
def setRaw (v : RawCode) (s : State) : State := { s with raw := v }
/-- `RES <- v`. -/
def setRes (v : Resistance) (s : State) : State := { s with res := v }
/-- `TEMP <- v`. -/
def setTemp (v : Temperature) (s : State) : State := { s with temp := v }
/-- `FAULT <- v`. -/
def setFault (v : Bool) (s : State) : State := { s with fault := v }
/-- `BR <- v`. -/
def setBr (v : Bool) (s : State) : State := { s with br := v }
/-- `ILL <- v`. -/
def setIll (v : Bool) (s : State) : State := { s with ill := v }
/-- `T <- v`. -/
def setT (v : Wide) (s : State) : State := { s with t := v }
/-- `F <- v`. -/
def setF (v : Wide) (s : State) : State := { s with f := v }
/-- `D <- v`. -/
def setD (v : Wide) (s : State) : State := { s with d := v }
/-- `IT <- v`. -/
def setIt (v : BitVec 3) (s : State) : State := { s with it := v }
/-- One event onto the trace (20_memory R52). -/
def emit (e : Event) (s : State) : State := { s with trace := s.trace ++ [e] }
/-- The level of the device select line (20_memory R51). -/
def setSel (v : Bool) (s : State) : State := { s with sel := v }
/-- One response on the response port (20_memory R67). -/
def respond (v : Response) (s : State) : State := { s with responses := s.responses ++ [v] }
/-- The environment's byte for one exchange is used up (20_memory R53). -/
def takeDraw (s : State) : State := { s with draws := s.draws.drop 1, xfers := s.xfers + 1 }
/-- The host's first pending action is taken (20_memory R65: a command word is consumed when it is accepted). -/
def dropAction (s : State) : State := { s with pending := s.pending.drop 1 }
/-- The model's command index advances by 1 (10_state R30). -/
def advanceIdx (s : State) : State := { s with idx := s.idx + 1 }

/-! ### The transport (00_scope R14, 20_memory R51 to R56) -/

/-- The byte that the exchange `k` exchanges from now returns: the environment's, from its list, or free past the
list's end (20_memory R53; log 1). -/
def drawAt (s : State) (k : Nat) : Byte := s.draws.getD k (Config.freeDraw (s.xfers + k))

/-- `Sel()`. -/
def selectDevice (s : State) : State := setSel true (emit .sel s)

/-- `Desel()`. -/
def deselectDevice (s : State) : State := setSel false (emit .desel s)

/-- `Xfer(out)`, with the byte `drawAt s 0` coming back. -/
def exchange (out : Byte) (s : State) : State := takeDraw (emit (.xfer out (drawAt s 0)) s)

/-- `CfgWrite()`: the configuration write; both returned bytes are discarded (20_memory R55). -/
def cfgWrite (c : Config.Cfg) (s : State) : State :=
  deselectDevice (exchange c.CFG_BYTE (exchange c.CFG_WR_OP (selectDevice s)))

/-- What `RtdRead()` does to the state (20_memory R56). -/
def rtdRead (c : Config.Cfg) (s : State) : State :=
  deselectDevice (exchange c.DUMMY (exchange c.DUMMY (exchange c.RTD_RD_OP (selectDevice s))))

/-- The `msb` that `RtdRead()` returns: the second of its three bytes (20_memory R56). -/
def rtdMsb (s : State) : Byte := drawAt s 1

/-- The `lsb` that `RtdRead()` returns: the third of its three bytes (20_memory R56). -/
def rtdLsb (s : State) : Byte := drawAt s 2

/-! ### The exceptional actions (60_exceptions R185); nothing returns from them (R199) -/

/-- `raise IllegalCommand`: `ILL <- 1` and nothing else (30_encoding R79, 60_exceptions R190). -/
def raiseIllegalCommand (s : State) : State := setIll true s

/-- The action on `AN_DEVFAULT`, after `RAW` and `FAULT` are written: the configuration write, and nothing else in
the block changes (60_exceptions R198). -/
def clearDeviceFault (c : Config.Cfg) (s : State) : State := cfgWrite c s

/-! ### The Interpreter (40_decoder R91) -/

/-- `Interpret(msb, lsb)`. -/
def interpret (c : Config.Cfg) (msb lsb : Byte) (s : State) : State :=
  let w := deviceWord msb lsb
  let s1 := setFault (faultOf w) (setRaw (rawOf w) s)
  if faultOf w then clearDeviceFault c s1 else s1

/-- The read and its interpretation, the effect of `RDRTD` (40_decoder R94). -/
def readAndInterpret (c : Config.Cfg) (s : State) : State := interpret c (rtdMsb s) (rtdLsb s) (rtdRead c s)

/-! ### Resets (70_reset_and_hazards R215) -/

/-- All ten registers and flags to 0, the select released; the trace and the ports stay (41_scaler_and_moves R111). -/
def clearRegisters (s : State) : State :=
  { s with raw := 0, res := 0, temp := 0, fault := false, br := false, ill := false, t := 0, f := 0, d := 0, it := 0,
           sel := false }

/-- The reset pin between commands: as `RST`, and the trace is empty (10_state R34; log 5). -/
def resetByPin (s : State) : State := { clearRegisters s with trace := [] }

/-! ### The Engine's register effects (41 R113, 43 R151, R153, 42 R136, 43 R157, R158) -/

/-- `RES <- sext_32(Scale(RAW))` (41_scaler_and_moves R113). -/
def scaleToRes (c : Config.Cfg) (s : State) : State := setRes (toRes (scale c s.raw.toNat)) s

/-- `BR <- BranchOf(RES)` (43_rootfinder R151). -/
def selectBranch (s : State) : State := setBr (branchOf s.res.toInt) s

/-- `T <- Estimate(BR, RES); IT <- 0` (43_rootfinder R153). -/
def loadEstimate (c : Config.Cfg) (s : State) : State :=
  setIt 0 (setT (toWide (estimate c s.br s.res.toInt)) s)

/-- `F` and `D` at the current estimate, of the branch `BR` (42_evaluator R136). -/
def evaluate (c : Config.Cfg) (s : State) : State :=
  setD (toWide (derivativeAt c s.br s.t.toInt)) (setF (toWide (residualAt c s.br s.t.toInt s.res.toInt)) s)

/-- `T` after an update with the `F` and `D` just computed: unchanged on a zero derivative (43_rootfinder R155 to
R157). -/
def nextEstimate (s : State) : Wide :=
  if s.d = 0#64 then s.t else toWide (stepEstimate s.br s.t.toInt s.f.toInt s.d.toInt)

/-- `IT` after an update: a zero derivative stops the positive branch, and is one skipped update of the negative one
(43_rootfinder R157). -/
def nextCount (s : State) : BitVec 3 :=
  if s.d = 0#64 ∧ s.br = true then BitVec.ofNat 3 Config.NPOS else s.it + 1

/-- What `NRIT` does to `T` and `IT` once `F` and `D` are computed (43_rootfinder R157). -/
def updateEstimate (s : State) : State := setIt (nextCount s) (setT (nextEstimate s) s)

/-- One bounded Newton-Raphson iteration, nothing at all once the bound is reached (43_rootfinder R157). -/
def iterate (c : Config.Cfg) (s : State) : State :=
  if iterBound s.br ≤ s.it.toNat then s else updateEstimate (evaluate c s)

/-- `while IT < N(BR) do NRIT`, at most `n` passes (44_converter R171). -/
def iterateWhile (c : Config.Cfg) : Nat → State → State
  | 0, s => s
  | n + 1, s => if s.it.toNat < iterBound s.br then iterateWhile c n (iterate c s) else s

/-- `TEMP <- sext_16(clamp(T, −2000, 8500))` (43_rootfinder R158). -/
def clampToTemp (s : State) : State := setTemp (toTemp (finalTemp s.t.toInt)) s

/-- The effect of `CVT` (44_converter R171); four passes are enough for either bound. -/
def convertRes (c : Config.Cfg) (s : State) : State :=
  clampToTemp (iterateWhile c 4 (loadEstimate c (selectBranch s)))

/-! ### The command port (20_memory R65, R67) -/

/-- The state in which the command at the head of `pending` runs: the word is consumed, the index advanced. -/
def acceptCommand (s : State) : State := advanceIdx (dropAction s)

/-- `s` with the command word `w` presented next. -/
def presentCommand (w : CmdWord) (s : State) : State := { s with pending := .command w :: s.pending }

end Sys2Proof.Machine
end

