-- ==== Sys2Proof/Machine/Engine.lean ====
section
/-!
DEFINITION. Meanings of the Engine's commands: evaluator (42_evaluator), root-finder (43_rootfinder), converter and
measurement cycle (44_converter).
-/
namespace Sys2Proof.Machine

/-- `BSEL` (43_rootfinder R151). -/
def execBsel (s : State) : Result := .next (selectBranch s)

/-- `EST` under a configuration (43_rootfinder R153). -/
def execEstUnder (c : Config.Cfg) (s : State) : Result := .next (loadEstimate c s)

/-- `EVAL` under a configuration (42_evaluator R136). -/
def execEvalUnder (c : Config.Cfg) (s : State) : Result := .next (evaluate c s)

/-- `NRIT` under a configuration (43_rootfinder R157). -/
def execNritUnder (c : Config.Cfg) (s : State) : Result := .next (iterate c s)

/-- `CVT` under a configuration (44_converter R171). -/
def execCvtUnder (c : Config.Cfg) (s : State) : Result := .next (convertRes c s)

/-- `MEAS` under a configuration: `RDRTD`, `SCALE`, `CVT` (44_converter R172); the conversion runs on a fault cycle
too (R173). It writes `FAULT` and `BR`, as R172 and 10_state R26, R27, R33 say, against a sentence of 10_state R25
(DEDUCED, log 11). -/
def execMeasUnder (c : Config.Cfg) (s : State) : Result :=
  .next (convertRes c (scaleToRes c (readAndInterpret c s)))

/-- `EST` (43_rootfinder R153). -/
def execEst (s : State) : Result := execEstUnder Config.cfg s

/-- `EVAL` (42_evaluator R136). -/
def execEval (s : State) : Result := execEvalUnder Config.cfg s

/-- `NRIT` (43_rootfinder R157). -/
def execNrit (s : State) : Result := execNritUnder Config.cfg s

/-- `CLMP` (43_rootfinder R158). -/
def execClmp (s : State) : Result := .next (clampToTemp s)

/-- `CVT` (44_converter R171). -/
def execCvt (s : State) : Result := execCvtUnder Config.cfg s

/-- `MEAS` (44_converter R172). -/
def execMeas (s : State) : Result := execMeasUnder Config.cfg s

end Sys2Proof.Machine
end

