-- ==== Sys2Proof/Machine/Interpreter.lean ====
section
/-!
DEFINITION. Meanings of the Interpreter's commands (40_decoder).
-/
namespace Sys2Proof.Machine

/-- `INIT` under a configuration: the startup configuration write (40_decoder R93). -/
def execInitUnder (c : Config.Cfg) (s : State) : Result := .next (cfgWrite c s)

/-- `RDRTD` under a configuration: read the device result and interpret it (40_decoder R94). -/
def execRdrtdUnder (c : Config.Cfg) (s : State) : Result := .next (readAndInterpret c s)

/-- `DEC msb, lsb` under a configuration: interpret two bytes given by the host (40_decoder R95). -/
def execDecUnder (c : Config.Cfg) (msb lsb : Byte) (s : State) : Result := .next (interpret c msb lsb s)

/-- `INIT` (40_decoder R93). -/
def execInit (s : State) : Result := execInitUnder Config.cfg s

/-- `RDRTD` (40_decoder R94). -/
def execRdrtd (s : State) : Result := execRdrtdUnder Config.cfg s

/-- `DEC msb, lsb` (40_decoder R95). -/
def execDec (msb lsb : Byte) (s : State) : Result := execDecUnder Config.cfg msb lsb s

end Sys2Proof.Machine
end

