-- ==== Sys2Proof/Machine/Moves.lean ====
section
/-!
DEFINITION. Meanings of the housekeeping, scaler and move commands (41_scaler_and_moves).
-/
namespace Sys2Proof.Machine

/-- `NOP` (41_scaler_and_moves R110). -/
def execNop (s : State) : Result := .next s

/-- `RST` (41_scaler_and_moves R111, 70_reset_and_hazards R217). -/
def execRst (s : State) : Result := .next (clearRegisters s)

/-- `SCALE` under a configuration (41_scaler_and_moves R113). -/
def execScaleUnder (c : Config.Cfg) (s : State) : Result := .next (scaleToRes c s)

/-- `SCALE` (41_scaler_and_moves R113). -/
def execScale (s : State) : Result := execScaleUnder Config.cfg s

/-- `SETR imm` (41_scaler_and_moves R114). -/
def execSetr (imm : BitVec 24) (s : State) : Result := .next (setRes (immRes imm) s)

/-- `SETT imm` (41_scaler_and_moves R115). -/
def execSett (imm : BitVec 24) (s : State) : Result := .next (setT (immT imm) s)

/-- `RD reg`: one response, or `raise IllegalCommand` and no response for a reserved index (41_scaler_and_moves
R116, 30_encoding R77). -/
def execRd (reg : BitVec 4) (s : State) : Result :=
  match readReg reg s with
  | some v => .next (respond v s)
  | none => .next (raiseIllegalCommand s)

end Sys2Proof.Machine
end

