-- ==== Sys2Proof/Machine/Configured.lean ====
section
/-!
DEFINITION. The step function with the configuration record as its parameter (10_state R32 (c)). A command that uses no
constant of the record is the same under every configuration. `exec` and `step` are these at `Config.cfg`.
-/
namespace Sys2Proof.Machine

/-- The effect of a command under a configuration. -/
def execUnder (c : Config.Cfg) (i : Instr) (s : State) : Result :=
  match i with
  | .nop => execNop s
  | .rst => execRst s
  | .init => execInitUnder c s
  | .rdrtd => execRdrtdUnder c s
  | .dec msb lsb => execDecUnder c msb lsb s
  | .scale => execScaleUnder c s
  | .setr imm => execSetr imm s
  | .sett imm => execSett imm s
  | .bsel => execBsel s
  | .est => execEstUnder c s
  | .eval => execEvalUnder c s
  | .nrit => execNritUnder c s
  | .clmp => execClmp s
  | .cvt => execCvtUnder c s
  | .meas => execMeasUnder c s
  | .rd reg => execRd reg s

/-- The block takes the host's next action and carries it out whole, running a legal command by `run` (20_memory R58,
R67). A command word is consumed and decoded, a reserved one raises `IllegalCommand` (30_encoding R79); the reset pin
resets (70_reset_and_hazards R215); with nothing pending the block stays ready and nothing changes (R231; log 4). -/
def takeAction (run : Instr → State → Result) (s : State) : Result :=
  match s.pending with
  | [] => .next s
  | .resetPin :: _ => .next (resetByPin (dropAction s))
  | .command w :: _ =>
    match decode w with
    | .legal i => run i (acceptCommand s)
    | .reserved _ => .next (raiseIllegalCommand (acceptCommand s))

/-- One step under a configuration (10_state R32 (c)). -/
def stepUnder (c : Config.Cfg) (s : State) : Result := takeAction (execUnder c) s

end Sys2Proof.Machine
end

