-- ==== Sys2Proof/Machine/Dispatch.lean ====
section
/-! DEFINITION. One arm for each command: its meaning. -/
namespace Sys2Proof.Machine

def exec (i : Instr) (s : State) : Host.Outcome State Fault Refusal :=
  match i with
  | .nop => Sys2Proof.Machine.execNop s
  | .rst => Sys2Proof.Machine.execRst s
  | .init => Sys2Proof.Machine.execInit s
  | .rdrtd => Sys2Proof.Machine.execRdrtd s
  | .dec msb lsb => Sys2Proof.Machine.execDec msb lsb s
  | .scale => Sys2Proof.Machine.execScale s
  | .setr imm => Sys2Proof.Machine.execSetr imm s
  | .sett imm => Sys2Proof.Machine.execSett imm s
  | .bsel => Sys2Proof.Machine.execBsel s
  | .est => Sys2Proof.Machine.execEst s
  | .eval => Sys2Proof.Machine.execEval s
  | .nrit => Sys2Proof.Machine.execNrit s
  | .clmp => Sys2Proof.Machine.execClmp s
  | .cvt => Sys2Proof.Machine.execCvt s
  | .meas => Sys2Proof.Machine.execMeas s
  | .rd reg => Sys2Proof.Machine.execRd reg s

end Sys2Proof.Machine
end

