-- ==== Sys2Proof/Machine/Step.lean ====
section
/-!
DEFINITION. One step: the block takes the host's next action and carries it out whole (20_memory R58, R67).
-/
namespace Sys2Proof.Machine

/-- One step, with the decided configuration: the next host action, a legal command run by `exec` (10_state R32 (c),
20_memory R58). -/
def step (s : State) : Host.Outcome State Fault Refusal := takeAction exec s

/-- `s` with the instruction whose bits are `w` as the host's next command word (log 3). -/
def State.withFetchWord (s : State) (nbits w : Nat) : State := presentCommand (tableWord nbits w) s

end Sys2Proof.Machine
end

