-- ==== Sys2Proof/Machine/Anomaly.lean ====
section
/-!
DEFINITION. The exceptional conditions a command meets (60_exceptions R185 to R190) and their order (R197). They are
labels for claims: the block has no cause register and records no code (R185), so nothing here is state.
-/
namespace Sys2Proof.Machine

/-- The five conditions (60_exceptions R185). -/
inductive Anomaly where
  /-- `AN_TIMEOUT`. No event in a model: it is the case that a drawn byte is 0 (60_exceptions R186). -/
  | timeout
  /-- `AN_DEVFAULT` (60_exceptions R187). -/
  | devFault
  /-- `AN_DZERO` (60_exceptions R188). -/
  | dZero
  /-- `AN_RANGE` (60_exceptions R189). -/
  | range
  /-- `IllegalCommand` (60_exceptions R190). -/
  | illegalCommand
deriving DecidableEq, Repr

/-- The code of a condition (60_exceptions R185). -/
def anomalyCode : Anomaly → Nat
  | .timeout => 0
  | .devFault => 1
  | .dZero => 2
  | .range => 3
  | .illegalCommand => 4

/-- The decode finds the fault bit set (60_exceptions R187). -/
def decodeConditions (msb lsb : Byte) : List Anomaly :=
  if faultOf (deviceWord msb lsb) then [.devFault] else []

/-- A clamp into `[lo, hi]` changes `v` (60_exceptions R189). -/
def rangeConditions (v lo hi : Int) : List Anomaly := if v < lo ∨ v > hi then [.range] else []

/-- The positive-branch clamp of the initial estimate (43_rootfinder R152; log 12). -/
def estimateConditions (c : Config.Cfg) (s : State) : List Anomaly :=
  if s.br then rangeConditions (linearEstimate c s.res.toInt) Config.TPOS_LO Config.TMAX else []

/-- One `NRIT`: its zero-derivative test, then the positive-branch clamp (60_exceptions R197 (6); log 12). -/
def passConditions (c : Config.Cfg) (s : State) : List Anomaly :=
  if iterBound s.br ≤ s.it.toNat then []
  else
    let e := evaluate c s
    if e.d = 0#64 then [.dZero]
    else if s.br then rangeConditions (rawStepPos e.t.toInt e.f.toInt e.d.toInt) Config.TPOS_LO Config.TMAX
    else []

/-- The passes of a `CVT` (44_converter R171). -/
def passesConditions (c : Config.Cfg) : Nat → State → List Anomaly
  | 0, _ => []
  | n + 1, s =>
    if s.it.toNat < iterBound s.br then passConditions c s ++ passesConditions c n (iterate c s) else []

/-- The final clamp (60_exceptions R189, R197 (7)). -/
def finalConditions (s : State) : List Anomaly := rangeConditions s.t.toInt Config.TMIN Config.TMAX

/-- A conversion: the estimate, the passes, the final clamp, in that order (60_exceptions R197 (5) to (7)). -/
def conversionConditions (c : Config.Cfg) (s : State) : List Anomaly :=
  let s1 := selectBranch s
  let s2 := loadEstimate c s1
  estimateConditions c s1 ++ passesConditions c 4 s2 ++ finalConditions (iterateWhile c 4 s2)

/-- The conditions a command meets when it runs in `s`, in the order they arise (60_exceptions R197). -/
def conditions (i : Instr) (s : State) : List Anomaly :=
  match i with
  | .nop | .rst | .init | .scale | .setr _ | .sett _ | .bsel | .eval => []
  | .rdrtd => decodeConditions (rtdMsb s) (rtdLsb s)
  | .dec msb lsb => decodeConditions msb lsb
  | .est => estimateConditions Config.cfg s
  | .nrit => passConditions Config.cfg s
  | .clmp => finalConditions s
  | .cvt => conversionConditions Config.cfg s
  | .meas =>
    decodeConditions (rtdMsb s) (rtdLsb s)
      ++ conversionConditions Config.cfg (scaleToRes Config.cfg (readAndInterpret Config.cfg s))
  | .rd reg => if (readReg reg s).isSome then [] else [.illegalCommand]

/-- The conditions a command word meets: a reserved word meets `IllegalCommand` only (60_exceptions R197). -/
def wordConditions (w : CmdWord) (s : State) : List Anomaly :=
  match decode w with
  | .legal i => conditions i s
  | .reserved _ => [.illegalCommand]

end Sys2Proof.Machine
end

