-- ==== Sys2Proof/Machine/Assembler.lean ====
section
/-!
DEFINITION. The assembler syntax and the pseudo-commands (30_encoding R81, R82). Text is a list of characters.
No part of the machine uses this file. Lexical details the spec leaves open are log 14.
-/
namespace Sys2Proof.Machine

/-- The expansion of a pseudo-command (30_encoding R82). -/
def expandPseudo : Pseudo → List Instr
  | .clrf => [.init]
  | .conv imm => [.setr imm, .cvt]
  | .rdall => [.rd 0, .rd 1, .rd 2, .rd 3]

/-- The line without its comment, which begins at `;` (30_encoding R81). -/
def dropComment (cs : List Char) : List Char := cs.takeWhile (· != ';')

/-- A finished word, if it has a character. -/
def wordOf (rev : List Char) : List (List Char) := if rev.isEmpty then [] else [rev.reverse]

/-- The words of a line: blanks separate, a comma stands alone; `rev` is the word under way, reversed. -/
def lineWords : List Char → List Char → List (List Char)
  | rev, [] => wordOf rev
  | rev, ch :: cs =>
    if ch = ' ' ∨ ch = '\t' then wordOf rev ++ lineWords [] cs
    else if ch = ',' then wordOf rev ++ [','] :: lineWords [] cs
    else lineWords (ch :: rev) cs

/-- The value of a digit in base ten or sixteen. -/
def digitValue (base : Nat) (ch : Char) : Option Nat :=
  let n := ch.toNat
  let v :=
    if 48 ≤ n ∧ n ≤ 57 then n - 48
    else if 65 ≤ n ∧ n ≤ 70 then n - 55
    else if 97 ≤ n ∧ n ≤ 102 then n - 87
    else base
  if v < base then some v else none

/-- Digits, most significant first, onto the value `acc` of those before. -/
def digitsValue (base : Nat) : Nat → List Char → Option Nat
  | acc, [] => some acc
  | acc, ch :: cs => (digitValue base ch).bind fun v => digitsValue base (acc * base + v) cs

/-- A number of at least one digit. -/
def numberValue (base : Nat) (cs : List Char) : Option Nat := if cs.isEmpty then none else digitsValue base 0 cs

/-- A minus sign: the spec prints the hyphen-minus (41_scaler_and_moves R115) and U+2212 (95_test_vectors 2.2) and
names neither in 30_encoding R81, so both are taken (DESIGN CHOICE, log 14). -/
def isMinus (ch : Char) : Bool := ch == '-' || ch == '\u2212'

/-- A decimal number after a minus sign, 0 to 8388608, negated. -/
def negativeImm (cs : List Char) : Option (BitVec 24) :=
  (numberValue 10 cs).bind fun n => if n ≤ 8388608 then some (BitVec.ofInt 24 (-(n : Int))) else none

/-- A decimal number without a sign, 0 to 8388607. -/
def positiveImm (cs : List Char) : Option (BitVec 24) :=
  (numberValue 10 cs).bind fun n => if n < 8388608 then some (BitVec.ofNat 24 n) else none

/-- The operand of `SETR` and `SETT`: a signed decimal −8388608 to 8388607, or a hexadecimal 24-bit pattern
(30_encoding R81); which characters are the minus sign is the model's choice, `isMinus` (log 14). -/
def immOperand : List Char → Option (BitVec 24)
  | '0' :: 'x' :: cs => (numberValue 16 cs).bind fun n => if n < 16777216 then some (BitVec.ofNat 24 n) else none
  | ch :: cs => if isMinus ch then negativeImm cs else positiveImm (ch :: cs)
  | [] => none

/-- An operand of `DEC`: an unsigned byte, decimal or hexadecimal (30_encoding R81). -/
def byteOperand : List Char → Option Byte
  | '0' :: 'x' :: cs => (numberValue 16 cs).bind fun n => if n < 256 then some (BitVec.ofNat 8 n) else none
  | cs => (numberValue 10 cs).bind fun n => if n < 256 then some (BitVec.ofNat 8 n) else none

/-- The register names of `RD`, by index (30_encoding R81, 10_state R21). -/
def regNames : List (List Char × BitVec 4) :=
  [("RAW".toList, 0), ("RES".toList, 1), ("TEMP".toList, 2), ("STATUS".toList, 3), ("T".toList, 4), ("F".toList, 5),
   ("D".toList, 6), ("IT".toList, 7), ("x0".toList, 0), ("x1".toList, 1), ("x2".toList, 2), ("x3".toList, 3),
   ("x4".toList, 4), ("x5".toList, 5), ("x6".toList, 6), ("x7".toList, 7)]

/-- The lines that are one word: the Format Z commands and two pseudo-commands (30_encoding R71, R82). -/
def bareLines : List (List Char × List Instr) :=
  [("NOP".toList, [.nop]), ("RST".toList, [.rst]), ("INIT".toList, [.init]), ("RDRTD".toList, [.rdrtd]),
   ("SCALE".toList, [.scale]), ("BSEL".toList, [.bsel]), ("EST".toList, [.est]), ("EVAL".toList, [.eval]),
   ("NRIT".toList, [.nrit]), ("CLMP".toList, [.clmp]), ("CVT".toList, [.cvt]), ("MEAS".toList, [.meas]),
   ("CLRF".toList, expandPseudo .clrf), ("RDALL".toList, expandPseudo .rdall)]

/-- The commands of a line's words (30_encoding R81, R82): none for a blank line, several for a pseudo-command. -/
def assembleWords : List (List Char) → Option (List Instr)
  | [] => some []
  | [m] => bareLines.lookup m
  | [m, a] =>
    if m = "SETR".toList then (immOperand a).map fun v => [.setr v]
    else if m = "SETT".toList then (immOperand a).map fun v => [.sett v]
    else if m = "CONV".toList then (immOperand a).map fun v => expandPseudo (.conv v)
    else if m = "RD".toList then (regNames.lookup a).map fun r => [.rd r]
    else none
  | [m, a, [','], b] =>
    if m = "DEC".toList then
      (byteOperand a).bind fun msb => (byteOperand b).map fun lsb => [.dec msb lsb]
    else none
  | _ => none

/-- The commands of one line of assembler text; `none` where the line is no line of the syntax (30_encoding R81). -/
def assembleLine (cs : List Char) : Option (List Instr) := assembleWords (lineWords [] (dropComment cs))

/-- A hexadecimal digit. -/
def hexDigit (n : Nat) : Char := Char.ofNat (if n < 10 then 48 + n else 55 + n)

/-- A word as eight hexadecimal digits (30_encoding R81). -/
def hexWord (w : CmdWord) : List Char :=
  [28, 24, 20, 16, 12, 8, 4, 0].map fun k => hexDigit ((w.toNat / 2 ^ k) % 16)

end Sys2Proof.Machine
end

