-- ==== Sys2Proof/Safety.lean ====
section
/-!
DEFINITION. The words in which claims speak of a run: runs and what is observed of them (70_reset_and_hazards R231),
and the invariants of 10_state R35 and 20_memory R54.
-/
namespace Sys2Proof.Machine

/-! ### Runs -/

/-- What a finite list of commands does from `s`, in order. -/
def runInstrs : List Instr → State → Host.Outcome State Fault Refusal
  | [], s => .next s
  | i :: is, s =>
    match exec i s with
    | .next t => runInstrs is t
    | .fault r => .fault r
    | .refused r => .refused r

/-- The start of a run from reset: the host will do `host`, the environment will return `bytes`
(70_reset_and_hazards R231). -/
def startRun (host : List HostAction) (bytes : List Byte) : State :=
  { State.reset with pending := host, draws := bytes }

/-- What is observed of a run (70_reset_and_hazards R231): the registers, the trace, the responses. -/
structure Observation where
  raw : RawCode
  res : Resistance
  temp : Temperature
  status : BitVec 3
  t : Wide
  f : Wide
  d : Wide
  it : BitVec 3
  trace : List Event
  responses : List Response
deriving DecidableEq, Repr

/-- The observation of a state. -/
def observe (s : State) : Observation where
  raw := s.raw
  res := s.res
  temp := s.temp
  status := statusWord s
  t := s.t
  f := s.f
  d := s.d
  it := s.it
  trace := s.trace
  responses := s.responses

/-! ### Invariants -/

/-- The ranges of 10_state R35 that the widths do not give already: `TEMP` in [−2000, 8500], `IT` at most 4, the
device select released. -/
abbrev RegisterRanges (s : State) : Prop :=
  -2000 ≤ s.temp.toInt ∧ s.temp.toInt ≤ 8500 ∧ s.it.toNat ≤ 4 ∧ s.sel = false

/-- The trace is a list of whole sequences, each the configuration write of 20_memory R55 or the RTD read of R56, with
the configured bytes sent and any bytes returned (20_memory R54). -/
def sequencesOnly (c : Config.Cfg) : List Event → Bool
  | [] => true
  | .sel :: .xfer o1 _ :: .xfer o2 _ :: .desel :: rest =>
    o1 == c.CFG_WR_OP && o2 == c.CFG_BYTE && sequencesOnly c rest
  | .sel :: .xfer o1 _ :: .xfer o2 _ :: .xfer o3 _ :: .desel :: rest =>
    o1 == c.RTD_RD_OP && o2 == c.DUMMY && o3 == c.DUMMY && sequencesOnly c rest
  | _ => false

/-- `RES` is a value some command can write: a 24-bit immediate or a scaled code (41_scaler_and_moves R112, R114). -/
abbrev ResWritable (s : State) : Prop := -8388608 ≤ s.res.toInt ∧ s.res.toInt ≤ 8388607

/-! ### The access table (10_state R33) -/

/-- The eleven items of state (10_state R20). -/
inductive Item where
  | RAW | RES | TEMP | FAULT | BR | ILL | T | F | D | IT | trace
deriving DecidableEq, Repr

/-- The items whose column says `w` (`+` for the trace) in the row of each command (10_state R33); a read of a reserved
index is a reserved encoding and writes `ILL` only. -/
def writtenItems : Instr → List Item
  | .nop => []
  | .rst => [.RAW, .RES, .TEMP, .FAULT, .BR, .ILL, .T, .F, .D, .IT]
  | .init => [.trace]
  | .rdrtd => [.RAW, .FAULT, .trace]
  | .dec _ lsb => if lsb.getLsbD 0 then [.RAW, .FAULT, .trace] else [.RAW, .FAULT]
  | .scale => [.RES]
  | .setr _ => [.RES]
  | .sett _ => [.T]
  | .bsel => [.BR]
  | .est => [.T, .IT]
  | .eval => [.F, .D]
  | .nrit => [.T, .F, .D, .IT]
  | .clmp => [.TEMP]
  | .cvt => [.TEMP, .BR, .T, .F, .D, .IT]
  | .meas => [.RAW, .RES, .TEMP, .FAULT, .BR, .T, .F, .D, .IT, .trace]
  | .rd reg => if reg.toNat < 8 then [] else [.ILL]

/-- The item is the same in both states. -/
def sameItem (x : Item) (s t : State) : Prop :=
  match x with
  | .RAW => t.raw = s.raw
  | .RES => t.res = s.res
  | .TEMP => t.temp = s.temp
  | .FAULT => t.fault = s.fault
  | .BR => t.br = s.br
  | .ILL => t.ill = s.ill
  | .T => t.t = s.t
  | .F => t.f = s.f
  | .D => t.d = s.d
  | .IT => t.it = s.it
  | .trace => t.trace = s.trace

/-- The exchanges a command makes when it runs in `s` (70_reset_and_hazards R230). -/
def exchangeCount (i : Instr) (s : State) : Nat :=
  match i with
  | .init => 2
  | .rdrtd => if (rtdLsb s).getLsbD 0 then 5 else 3
  | .dec _ lsb => if lsb.getLsbD 0 then 2 else 0
  | .meas => if (rtdLsb s).getLsbD 0 then 5 else 3
  | .nop | .rst | .scale | .setr _ | .sett _ | .bsel | .est | .eval | .nrit | .clmp | .cvt | .rd _ => 0

/-! ### The evaluator and the positive branch in exact integers (42_evaluator R138, 44_converter R174) -/

/-- The residual of 42_evaluator R132, R134 with the literals and no wrap. -/
def exactResidual (b : Bool) (t r : Int) : Int :=
  1000000000000 + 390830000 * t - 5775 * (t * t) - 100000000 * r
    + (if b then 0 else Int.tdiv (-4183 * (t - 1000) * (t * t * t)) 10000000)

/-- The derivative of 42_evaluator R133, R135 with the literals and no wrap. -/
def exactDerivative (b : Bool) (t : Int) : Int :=
  if b then 390830000 - 11550 * t
  else 3908300000 - 115500 * t + Int.tdiv (-4183 * (4 * (t * t * t) - 3000 * (t * t))) 1000000

/-- `n` passes of the positive branch with no wrap (44_converter R170). -/
def exactPosPasses (r : Int) : Nat → Int → Int
  | 0, t => t
  | n + 1, t =>
    exactPosPasses r n (clamp (t - Int.tdiv (exactResidual true t r) (exactDerivative true t)) 0 8500)

/-- The positive branch's conversion with no wrap and no zero-derivative arm (44_converter R170, R174). -/
def exactPosConvert (r : Int) : Int :=
  exactPosPasses r 4 (clamp (Int.tdiv ((r - 10000) * 100000000) 390830000) 0 8500)

end Sys2Proof.Machine
end

