-- ==== Sys2Proof/Certificates/Slice0/Obligations.lean ====
section
/-!
DEFINITION. The statements for the provers. Each docstring names the rule of spec/ it formalises. Numbers are written
out as the spec prints them, so that a statement does not lean on the model's constants.
-/

open Sys2Proof Sys2Proof.Machine

/-! ### Encoding (30_encoding) -/

/-- Decoding the word of a well-formed command gives the command back (30_encoding R71, R72, R73, R83). -/
def Obligations.DecodeOfEncodeIsTheCommand : Prop :=
  ∀ i : Instr, i.WellFormed = true → decode (encode i) = .legal i

/-- A legal word is the word of the one command it decodes to, which is well-formed: each bit of a word is read
(30_encoding R71, R76, R77). -/
def Obligations.LegalWordIsTheWordOfItsCommand : Prop :=
  ∀ (w : CmdWord) (i : Instr), decode w = .legal i → i.WellFormed = true ∧ encode i = w

/-- R78: a word is legal exactly when it matches one row of R73, and reserved exactly when it matches none. -/
def Obligations.LegalExactlyWhenARowMatches : Prop :=
  ∀ w : CmdWord,
    ((∃ i, decode w = .legal i) ↔ ∃ r ∈ opcodeTable, r.Matches w) ∧
    ((∃ why, decode w = .reserved why) ↔ ∀ r ∈ opcodeTable, ¬ r.Matches w)

/-- R73: `w` is the command when `w & mask == match`, row by row with the printed numbers; the rows are disjoint. -/
def Obligations.OpcodeMapReadsAsPrinted : Prop :=
  (∀ w : CmdWord,
    (decode w = .legal .nop ↔ w &&& 0xFFFFFFFF#32 = 0x00000000#32) ∧
    (decode w = .legal .rst ↔ w &&& 0xFFFFFFFF#32 = 0x01000000#32) ∧
    (decode w = .legal .init ↔ w &&& 0xFFFFFFFF#32 = 0x02000000#32) ∧
    (decode w = .legal .rdrtd ↔ w &&& 0xFFFFFFFF#32 = 0x03000000#32) ∧
    ((∃ msb lsb, decode w = .legal (.dec msb lsb)) ↔ w &&& 0xFFFF0000#32 = 0x04000000#32) ∧
    (decode w = .legal .scale ↔ w &&& 0xFFFFFFFF#32 = 0x05000000#32) ∧
    ((∃ imm, decode w = .legal (.setr imm)) ↔ w &&& 0xFF000000#32 = 0x06000000#32) ∧
    ((∃ imm, decode w = .legal (.sett imm)) ↔ w &&& 0xFF000000#32 = 0x07000000#32) ∧
    (decode w = .legal .bsel ↔ w &&& 0xFFFFFFFF#32 = 0x08000000#32) ∧
    (decode w = .legal .est ↔ w &&& 0xFFFFFFFF#32 = 0x09000000#32) ∧
    (decode w = .legal .eval ↔ w &&& 0xFFFFFFFF#32 = 0x0A000000#32) ∧
    (decode w = .legal .nrit ↔ w &&& 0xFFFFFFFF#32 = 0x0B000000#32) ∧
    (decode w = .legal .clmp ↔ w &&& 0xFFFFFFFF#32 = 0x0C000000#32) ∧
    (decode w = .legal .cvt ↔ w &&& 0xFFFFFFFF#32 = 0x0D000000#32) ∧
    (decode w = .legal .meas ↔ w &&& 0xFFFFFFFF#32 = 0x0E000000#32) ∧
    ((∃ reg, decode w = .legal (.rd reg)) ↔ w &&& 0xFFFFFFF8#32 = 0x0F000000#32)) ∧
  (∀ w : CmdWord, ∀ r ∈ opcodeTable, ∀ r' ∈ opcodeTable, r.Matches w → r'.Matches w → r = r')

/-- R75, R76, R77: which words are reserved, each under its own name, by the opcode `w / 2^24` and the operand field
`w % 2^24`; Format I has no reserved operand bits. -/
def Obligations.ReservedWordsAreNamedByTheirRule : Prop :=
  ∀ w : CmdWord,
    (16 ≤ w.toNat / 16777216 → decode w = .reserved .opcode) ∧
    (w.toNat / 16777216 ∈ [0, 1, 2, 3, 5, 8, 9, 10, 11, 12, 13, 14] → w.toNat % 16777216 ≠ 0 →
      decode w = .reserved .operandBits) ∧
    (w.toNat / 16777216 = 4 → w.toNat % 16777216 / 65536 ≠ 0 → decode w = .reserved .operandBits) ∧
    (w.toNat / 16777216 = 15 → w.toNat % 16777216 / 16 ≠ 0 → decode w = .reserved .operandBits) ∧
    (w.toNat / 16777216 = 15 → w.toNat % 16777216 / 16 = 0 → 8 ≤ w.toNat % 16777216 →
      decode w = .reserved .registerIndex) ∧
    (w.toNat / 16777216 = 6 → decode w = .legal (.setr (BitVec.ofNat 24 (w.toNat % 16777216)))) ∧
    (w.toNat / 16777216 = 7 → decode w = .legal (.sett (BitVec.ofNat 24 (w.toNat % 16777216))))

/-- Some words of 95_test_vectors and the commands they stand for: one of each format and their reserved neighbours. -/
def Obligations.PrintedWordsDecode : Prop :=
  decode 0x0E000000#32 = .legal .meas ∧
  decode 0x04005275#32 = .legal (.dec 0x52#8 0x75#8) ∧
  decode 0x0600361A#32 = .legal (.setr 13850#24) ∧
  decode 0x07FFF602#32 = .legal (.sett (BitVec.ofInt 24 (-2558))) ∧
  decode 0x0F000007#32 = .legal (.rd 7#4) ∧
  decode 0x04015275#32 = .reserved .operandBits ∧
  decode 0x0F000008#32 = .reserved .registerIndex ∧
  decode 0x10000000#32 = .reserved .opcode

/-- The pseudo-commands expand as R82 prints them, and a line of text assembles to the words of 95_test_vectors.
Both printed minus signs are taken, which is the model's choice (log 14). -/
def Obligations.AssemblerLinesGiveThePrintedWords : Prop :=
  expandPseudo .clrf = [.init] ∧
  (∀ imm, expandPseudo (.conv imm) = [.setr imm, .cvt]) ∧
  expandPseudo .rdall = [.rd 0, .rd 1, .rd 2, .rd 3] ∧
  (assembleLine "SETR 13850".toList).map (List.map encode) = some [0x0600361A#32] ∧
  (assembleLine "DEC 0x52, 0x75 ; fault".toList).map (List.map encode) = some [0x04005275#32] ∧
  (assembleLine "RD STATUS".toList).map (List.map encode) = some [0x0F000003#32] ∧
  (assembleLine "SETR -8388608".toList).map (List.map encode) = some [0x06800000#32] ∧
  (assembleLine "SETT −2558".toList).map (List.map encode) = some [0x07FFF602#32] ∧
  assembleLine "SETR 8388608".toList = none ∧
  hexWord 0x0600361A#32 = "0600361A".toList

/-! ### Steps and resets -/

/-- A step runs the decoded command in the state in which its word is consumed and the index has advanced by 1
(20_memory R58, R65; 10_state R30). That the command stands at the head of `pending` and that `idx` counts it are the
model's own arrangement (log 3). -/
def Obligations.StepRunsTheDecodedCommand : Prop :=
  ∀ (s : State) (w : CmdWord) (rest : List HostAction) (i : Instr),
    s.pending = .command w :: rest → decode w = .legal i → i.WellFormed = true →
      step s = exec i { s with pending := rest, idx := s.idx + 1 }

/-- R79: a reserved word sets `ILL`; nothing else of the block changes, no event, no response, and it stays ready. The
consumed word and the index are the model's (log 3). -/
def Obligations.ReservedWordSetsIllAndNothingElse : Prop :=
  ∀ (s : State) (w : CmdWord) (rest : List HostAction) (why : Reserved),
    s.pending = .command w :: rest → decode w = .reserved why →
      step s = .next { s with pending := rest, idx := s.idx + 1, ill := true }

/-- R28: `ILL` is set by every reserved word, cleared only by reset, and no command's behaviour depends on it: `RST`
gives the same state whatever `ILL` is, and every other legal command does the same and keeps it, `RD STATUS`, which
answers it, included. -/
def Obligations.IllIsStickyAndReadByNothing : Prop :=
  (∀ (s : State) (w : CmdWord) (rest : List HostAction) (why : Reserved),
    s.pending = .command w :: rest → decode w = .reserved why → ∃ t, step s = .next t ∧ t.ill = true) ∧
  (∀ s t : State, step s = .next t → s.ill = true → t.ill = false →
    (∃ rest, s.pending = .resetPin :: rest) ∨
    (∃ w rest, s.pending = .command w :: rest ∧ decode w = .legal .rst)) ∧
  (∀ (i : Instr) (s t : State) (v : Bool), i.WellFormed = true → i ≠ .rst → i ≠ .rd 3 → exec i s = .next t →
    t.ill = s.ill ∧ exec i { s with ill := v } = .next { t with ill := v }) ∧
  (∀ (s t : State), exec (.rd 3) s = .next t → t.ill = s.ill) ∧
  (∀ (s : State) (v : Bool), exec .rst { s with ill := v } = exec .rst s)

/-- R15, R185, R229: the block never traps or stops; every command and every step answers a next state. With nothing
pending the step leaves the state as it is (log 4). -/
def Obligations.EveryCommandAndStepCompletes : Prop :=
  (∀ (i : Instr) (s : State), ∃ t, exec i s = .next t) ∧
  (∀ s : State, ∃ t, step s = .next t) ∧
  (∀ s : State, s.pending = [] → step s = .next s)

/-- R34: the reset values, of the reset state, after the reset pin (the trace is empty) and after `RST` (the trace is
unchanged). -/
def Obligations.ResetLeavesTheTabledValues : Prop :=
  (State.reset.raw = 0 ∧ State.reset.res = 0 ∧ State.reset.temp = 0 ∧ State.reset.fault = false ∧
    State.reset.br = false ∧ State.reset.ill = false ∧ State.reset.t = 0 ∧ State.reset.f = 0 ∧ State.reset.d = 0 ∧
    State.reset.it = 0 ∧ State.reset.trace = [] ∧ State.reset.sel = false) ∧
  (∀ (s : State) (rest : List HostAction), s.pending = .resetPin :: rest → ∃ p, step s = .next p ∧
    p.raw = 0 ∧ p.res = 0 ∧ p.temp = 0 ∧ p.fault = false ∧ p.br = false ∧ p.ill = false ∧
    p.t = 0 ∧ p.f = 0 ∧ p.d = 0 ∧ p.it = 0 ∧ p.trace = [] ∧ p.sel = false) ∧
  (∀ s : State, ∃ t, exec .rst s = .next t ∧
    t.raw = 0 ∧ t.res = 0 ∧ t.temp = 0 ∧ t.fault = false ∧ t.br = false ∧ t.ill = false ∧
    t.t = 0 ∧ t.f = 0 ∧ t.d = 0 ∧ t.it = 0 ∧ t.trace = s.trace ∧ t.sel = false)

/-- The model's choice (log 2, log 3, log 5): the model's own fields are empty or 0 in the reset state, and the reset
pin, one host action, keeps what has passed over the ports and counts as no command. -/
def Obligations.ResetPinKeepsThePortRecords : Prop :=
  (State.reset.responses = [] ∧ State.reset.pending = [] ∧ State.reset.idx = 0 ∧ State.reset.draws = [] ∧
    State.reset.xfers = 0) ∧
  (∀ (s : State) (rest : List HostAction), s.pending = .resetPin :: rest →
    step s = .next { State.reset with
      responses := s.responses, pending := rest, idx := s.idx, draws := s.draws, xfers := s.xfers })

/-- R231, R67: responses come from legal reads only, one each; every command adds to the trace and takes nothing off it
(20_memory R58 (c)); no command touches what the host still has to give or the index. -/
def Obligations.CommandsOnlyAddToTraceAndResponses : Prop :=
  ∀ (i : Instr) (s t : State), exec i s = .next t →
    (∃ es, t.trace = s.trace ++ es) ∧
    (t.responses = s.responses ∨
      ∃ reg v, i = .rd reg ∧ reg.toNat < 8 ∧ readReg reg s = some v ∧ t.responses = s.responses ++ [v]) ∧
    t.pending = s.pending ∧ t.idx = s.idx

/-! ### Moves and the scaler (41_scaler_and_moves) -/

/-- R110: the all-zero word is `NOP`, and `NOP` leaves the state as it was. -/
def Obligations.NopLeavesTheStateAsItWas : Prop :=
  decode 0x00000000#32 = .legal .nop ∧ ∀ s : State, exec .nop s = .next s

/-- R111: `RST` writes all ten registers and flags to 0, keeps the trace, sends nothing, is the only command that
clears `ILL`, and leaves the state the reset pin leaves but for the trace (and the model's own fields, log 5). -/
def Obligations.RstZeroesTheRegistersAndKeepsTheTrace : Prop :=
  decode 0x01000000#32 = .legal .rst ∧
  (∀ s : State, exec .rst s = .next
    { s with raw := 0, res := 0, temp := 0, fault := false, br := false, ill := false, t := 0, f := 0, d := 0, it := 0,
             sel := false }) ∧
  (∀ (i : Instr) (s t : State), exec i s = .next t → s.ill = true → t.ill = false → i = .rst) ∧
  (∀ (s : State) (rest : List HostAction), s.pending = .resetPin :: rest → ∃ t p,
    exec .rst s = .next t ∧ step s = .next p ∧
    t = { p with
      trace := s.trace, responses := t.responses, pending := t.pending, idx := t.idx, draws := t.draws,
      xfers := t.xfers })

/-- R112, R113: `SCALE` writes `RES` with `floor(RAW · 43000 / 32768)`, between 0 and 42998, and nothing else;
the scaling is non-decreasing; the printed corner cases. -/
def Obligations.ScaleWritesTheScaledCode : Prop :=
  decode 0x05000000#32 = .legal .scale ∧
  (∀ raw : RawCode, raw.toNat * 43000 ≤ 1408981000) ∧
  (∀ s : State, ∃ t, exec .scale s = .next t ∧ t = { s with res := t.res } ∧
    t.res.toInt = ((s.raw.toNat * 43000 / 32768 : Nat) : Int) ∧ 0 ≤ t.res.toInt ∧ t.res.toInt ≤ 42998 ∧
    (s.raw = 0 → t.res.toInt = 0) ∧ (s.raw = 32767 → t.res.toInt = 42998) ∧
    (s.raw = 7620 → t.res.toInt = 9999) ∧ (s.raw = 7621 → t.res.toInt = 10000) ∧
    (s.raw = 10554 → t.res.toInt = 13849)) ∧
  (∀ s s' t t' : State, exec .scale s = .next t → exec .scale s' = .next t' → s.raw.toNat ≤ s'.raw.toNat →
    t.res.toInt ≤ t'.res.toInt)

/-- R114: `SETR imm` writes `RES` with the sign-extended immediate and nothing else (`BR` included); every immediate is
legal; no command writes a `RES` outside the 24-bit range; the printed examples. -/
def Obligations.SetrWritesTheSignExtendedImmediate : Prop :=
  (∀ imm : BitVec 24, decode (0x06000000#32 ||| imm.setWidth 32) = .legal (.setr imm)) ∧
  (∀ (imm : BitVec 24) (s : State), ∃ t, exec (.setr imm) s = .next t ∧ t = { s with res := t.res } ∧
    t.res.toInt = imm.toInt) ∧
  (∀ (i : Instr) (s t : State), exec i s = .next t → t.res ≠ s.res →
    -8388608 ≤ t.res.toInt ∧ t.res.toInt ≤ 8388607) ∧
  (BitVec.toInt 0x800000#24 = -8388608 ∧ BitVec.toInt 0x7FFFFF#24 = 8388607) ∧
  decode 0x06002710#32 = .legal (.setr 10000#24)

/-- R115: `SETT imm` writes `T` with the sign-extended immediate, with no clamp, and nothing else; the example. -/
def Obligations.SettWritesTheSignExtendedImmediate : Prop :=
  (∀ imm : BitVec 24, decode (0x07000000#32 ||| imm.setWidth 32) = .legal (.sett imm)) ∧
  (∀ (imm : BitVec 24) (s : State), ∃ t, exec (.sett imm) s = .next t ∧ t = { s with t := t.t } ∧
    t.t.toInt = imm.toInt) ∧
  decode 0x07FFF602#32 = .legal (.sett (BitVec.ofInt 24 (-2558)))

/-- R116 with the table of R21: a read of index 0 to 7 gives one response, the register extended to 64 bits, and changes
nothing; an index of 8 or more raises `IllegalCommand` and gives no response. -/
def Obligations.RdRespondsWithTheExtendedRegister : Prop :=
  (∀ (reg : BitVec 4) (s : State), reg.toNat < 8 → ∃ v : Response,
    exec (.rd reg) s = .next { s with responses := s.responses ++ [v] } ∧
    (reg = 0 → v.toNat = s.raw.toNat) ∧
    (reg = 1 → v.toInt = s.res.toInt) ∧
    (reg = 2 → v.toInt = s.temp.toInt) ∧
    (reg = 3 → v.toNat = 4 * s.ill.toNat + 2 * s.br.toNat + s.fault.toNat) ∧
    (reg = 4 → v = s.t) ∧
    (reg = 5 → v = s.f) ∧
    (reg = 6 → v = s.d) ∧
    (reg = 7 → v.toNat = s.it.toNat)) ∧
  (∀ (reg : BitVec 4) (s : State), 8 ≤ reg.toNat → exec (.rd reg) s = .next { s with ill := true }) ∧
  (∀ reg : BitVec 4, reg.toNat < 8 → decode (0x0F000000#32 ||| reg.setWidth 32) = .legal (.rd reg)) ∧
  (∀ reg : BitVec 4, 8 ≤ reg.toNat → decode (0x0F000000#32 ||| reg.setWidth 32) = .reserved .registerIndex) ∧
  (∀ w : CmdWord, w.toNat / 16777216 = 15 → w.toNat % 16777216 / 16 ≠ 0 → decode w = .reserved .operandBits)

/-! ### The Interpreter (40_decoder, 20_memory) -/

/-- R90: `flt = lsb[0]` and `raw = 128·msb + lsb[7:1]`, which is `floor(W / 2)` with `W = 256·msb + lsb`. -/
def Obligations.DeviceWordSplitsIntoCodeAndFault : Prop :=
  ∀ msb lsb : Byte,
    (deviceWord msb lsb).toNat = 256 * msb.toNat + lsb.toNat ∧
    (rawOf (deviceWord msb lsb)).toNat = 128 * msb.toNat + lsb.toNat / 2 ∧
    (rawOf (deviceWord msb lsb)).toNat = (deviceWord msb lsb).toNat / 2 ∧
    (faultOf (deviceWord msb lsb) = true ↔ lsb.toNat % 2 = 1)

/-- R93: `INIT` appends exactly the four events of the configuration write and changes no register; the select is
released (20_memory R54). The bytes that come back are the environment's, any at all (R53); `draws` and `xfers` are
the model's record of them (log 1). -/
def Obligations.InitSendsTheConfigurationWrite : Prop :=
  decode 0x02000000#32 = .legal .init ∧
  ∀ s : State, ∃ t, exec .init s = .next t ∧ t =
    { s with
      trace := s.trace ++ [.sel, .xfer 0x80#8 (drawAt s 0), .xfer 0xD0#8 (drawAt s 1), .desel]
      sel := false
      draws := t.draws
      xfers := t.xfers }

/-- R95: `DEC` writes `RAW` and `FAULT` from the two bytes; it sends the configuration write exactly when bit 0 of
`lsb` is 1; nothing else changes but the model's record of the returned bytes (log 1). Bits 23:16 that are not zero
make the word reserved. -/
def Obligations.DecInterpretsTheTwoGivenBytes : Prop :=
  (∀ msb lsb : Byte, decode (0x04000000#32 ||| (msb.setWidth 32 <<< 8) ||| lsb.setWidth 32) = .legal (.dec msb lsb)) ∧
  (∀ (msb lsb : Byte) (s : State), lsb.toNat % 2 = 0 → exec (.dec msb lsb) s = .next
    { s with raw := BitVec.ofNat 15 ((256 * msb.toNat + lsb.toNat) / 2), fault := false }) ∧
  (∀ (msb lsb : Byte) (s : State), lsb.toNat % 2 = 1 → ∃ t, exec (.dec msb lsb) s = .next t ∧ t =
    { s with
      raw := BitVec.ofNat 15 ((256 * msb.toNat + lsb.toNat) / 2)
      fault := true
      trace := s.trace ++ [.sel, .xfer 0x80#8 (drawAt s 0), .xfer 0xD0#8 (drawAt s 1), .desel]
      sel := false
      draws := t.draws
      xfers := t.xfers }) ∧
  (∀ w : CmdWord, w.toNat / 16777216 = 4 → w.toNat % 16777216 / 65536 ≠ 0 → decode w = .reserved .operandBits)

/-- R94: `RDRTD` appends the five events of the RTD read, whose second and third bytes are `msb` and `lsb`; it
writes `RAW` and `FAULT` from them; on a fault the four events of the configuration write follow; nothing else changes
but the model's record of the returned bytes (log 1). The bytes are those of the environment, any at all (R53). -/
def Obligations.RdrtdReadsAndInterprets : Prop :=
  decode 0x03000000#32 = .legal .rdrtd ∧
  (∀ (s : State) (msb lsb : Byte), drawAt s 1 = msb → drawAt s 2 = lsb → lsb.toNat % 2 = 0 → ∃ t,
    exec .rdrtd s = .next t ∧ t =
    { s with
      raw := BitVec.ofNat 15 ((256 * msb.toNat + lsb.toNat) / 2)
      fault := false
      trace := s.trace ++ [.sel, .xfer 0x01#8 (drawAt s 0), .xfer 0x00#8 msb, .xfer 0x00#8 lsb, .desel]
      sel := false
      draws := t.draws
      xfers := t.xfers }) ∧
  (∀ (s : State) (msb lsb : Byte), drawAt s 1 = msb → drawAt s 2 = lsb → lsb.toNat % 2 = 1 → ∃ t,
    exec .rdrtd s = .next t ∧ t =
    { s with
      raw := BitVec.ofNat 15 ((256 * msb.toNat + lsb.toNat) / 2)
      fault := true
      trace := s.trace ++ [.sel, .xfer 0x01#8 (drawAt s 0), .xfer 0x00#8 msb, .xfer 0x00#8 lsb, .desel,
        .sel, .xfer 0x80#8 (drawAt s 3), .xfer 0xD0#8 (drawAt s 4), .desel]
      sel := false
      draws := t.draws
      xfers := t.xfers })

/-- R53, R57: whatever bytes the environment returns, the decoded word is those bytes, first byte most significant. -/
def Obligations.ReadWordIsTheDrawnBytesMsbFirst : Prop :=
  ∀ (s : State) (b0 msb lsb : Byte) (rest : List Byte), s.draws = b0 :: msb :: lsb :: rest →
    ∃ t, exec .rdrtd s = .next t ∧ t.raw.toNat = (256 * msb.toNat + lsb.toNat) / 2 ∧
      t.fault.toNat = lsb.toNat % 2

/-- R26, R194: `FAULT` changes only by a decode or a reset, and the `fault` pin is `FAULT`. -/
def Obligations.FaultChangesOnlyByDecodeOrReset : Prop :=
  (∀ (i : Instr) (s t : State), exec i s = .next t → t.fault ≠ s.fault →
    i = .rdrtd ∨ i = .meas ∨ i = .rst ∨ ∃ msb lsb, i = .dec msb lsb) ∧
  (∀ s : State, faultPin s = s.fault)

/-! ### The evaluator (42_evaluator, 00_scope R12) -/

/-- R12: `wrap64` gives the one value of the 64-bit range congruent to its argument; `tdiv` rounds the quotient of the
sizes down and takes the sign; it wraps in the one case −2^63 / −1; `clamp` as defined. -/
def Obligations.WrapAndDivisionFollowTheirDefinitions : Prop :=
  (∀ z : Int, -9223372036854775808 ≤ wrap64 z ∧ wrap64 z < 9223372036854775808 ∧
    (18446744073709551616 : Int) ∣ z - wrap64 z) ∧
  (∀ a b : Int, -9223372036854775808 ≤ a → a < 9223372036854775808 → -9223372036854775808 ≤ b →
    b < 9223372036854775808 → b ≠ 0 → ¬ (a = -9223372036854775808 ∧ b = -1) →
    tdiv a b = a.sign * b.sign * ((a.natAbs / b.natAbs : Nat) : Int)) ∧
  tdiv (-9223372036854775808) (-1) = -9223372036854775808 ∧
  (∀ v lo hi : Int, clamp v lo hi = if v < lo then lo else if v > hi then hi else v)

/-- R132 to R136: `EVAL` writes `F` and `D` with the residual and the derivative of the branch `BR`, at the printed
literals, products wrapped to 64 bits before each division and the sums after, and writes nothing else; at `T = 0`,
`RES = 10000` the residual is 0 in both branches; the printed example. -/
def Obligations.EvalWritesResidualAndDerivative : Prop :=
  decode 0x0A000000#32 = .legal .eval ∧
  (∀ (s : State) (t r : Int), s.t.toInt = t → s.res.toInt = r → s.br = true → exec .eval s = .next
    { s with
      f := BitVec.ofInt 64 (1000000000000 + 390830000 * t - 5775 * (t * t) - 100000000 * r)
      d := BitVec.ofInt 64 (390830000 - 11550 * t) }) ∧
  (∀ (s : State) (t r : Int), s.t.toInt = t → s.res.toInt = r → s.br = false → exec .eval s = .next
    { s with
      f := BitVec.ofInt 64 (1000000000000 + 390830000 * t - 5775 * (t * t) - 100000000 * r
        + Int.tdiv ((-4183 * (t - 1000) * (t * t * t)).bmod 18446744073709551616) 10000000)
      d := BitVec.ofInt 64 (3908300000 - 115500 * t
        + Int.tdiv ((-4183 * (4 * (t * t * t) - 3000 * (t * t))).bmod 18446744073709551616) 1000000) }) ∧
  (∀ s t : State, s.t = 0 → s.res = 10000 → exec .eval s = .next t → t.f = 0) ∧
  (∀ s t : State, s.br = false → s.t.toInt = -2000 → s.res = 1852 → exec .eval s = .next t →
    t.f.toInt = 800000 ∧ t.d.toInt = 4323352000)

/-- R138 (derived in the spec): for an estimate of size at most 6600 the evaluator's results are the exact integers, in
both branches and for every `RES`. -/
def Obligations.EvalIsExactUpTo6600 : Prop :=
  ∀ s : State, -6600 ≤ s.t.toInt → s.t.toInt ≤ 6600 →
    ∃ t, exec .eval s = .next t ∧ t.f.toInt = exactResidual s.br s.t.toInt s.res.toInt ∧
      t.d.toInt = exactDerivative s.br s.t.toInt

/-- R132, R137 (b): hardware may wrap after every operation or once at the end: in both branches the residual and the
derivative computed in 64-bit register arithmetic are the wrapped exact ones, for every configuration. The one division
of the negative branch stands between the two wraps: it takes the register value of its product (R134, R135). -/
def Obligations.WrappingEachOperationGivesTheSameResult : Prop :=
  ∀ (c : Config.Cfg) (t : Wide) (r : Resistance),
    toWide (fPos c t.toInt r.toInt) =
      BitVec.ofInt 64 c.R0S + BitVec.ofInt 64 c.A1 * t + BitVec.ofInt 64 c.B2 * (t * t)
        - BitVec.ofInt 64 c.S * r.signExtend 64 ∧
    toWide (dPos c t.toInt) = BitVec.ofInt 64 c.A1 + 2 * BitVec.ofInt 64 c.B2 * t ∧
    toWide (fNeg c t.toInt r.toInt) =
      BitVec.ofInt 64 c.R0S + BitVec.ofInt 64 c.A1 * t + BitVec.ofInt 64 c.B2 * (t * t)
        - BitVec.ofInt 64 c.S * r.signExtend 64
        + BitVec.ofInt 64 (Int.tdiv (BitVec.ofInt 64 c.C15 * (t - 1000) * (t * t * t)).toInt c.CDIV) ∧
    toWide (dNeg c t.toInt) =
      10 * BitVec.ofInt 64 c.A1 + 20 * BitVec.ofInt 64 c.B2 * t
        + BitVec.ofInt 64
            (Int.tdiv (BitVec.ofInt 64 c.C15 * (4 * (t * t * t) - 3000 * (t * t))).toInt (c.CDIV / 10))

/-- R133, R135 (derived in the spec): the ranges of the derivative, and that the positive one is zero nowhere below
2^48 in size. -/
def Obligations.DerivativesStayAwayFromZero : Prop :=
  (∀ t : Int, 0 ≤ t → t ≤ 8500 → 292655000 ≤ dPos Config.cfg t ∧ dPos Config.cfg t ≤ 390830000) ∧
  (∀ t : Int, -281474976710656 < t → t < 281474976710656 → dPos Config.cfg t ≠ 0) ∧
  (∀ t : Int, -6600 ≤ t → t ≤ 0 → 3908300000 ≤ dNeg Config.cfg t)

/-! ### Branch, estimate, iteration, clamp (43_rootfinder) -/

/-- R150, R151: `BSEL` writes `BR` with the signed test `RES ≥ 10000` and nothing else; the test is non-decreasing;
the printed corner cases. -/
def Obligations.BselTestsRESAgainstTheIcePoint : Prop :=
  decode 0x08000000#32 = .legal .bsel ∧
  (∀ s : State, exec .bsel s = .next { s with br := decide (10000 ≤ s.res.toInt) }) ∧
  (∀ r r' : Int, r ≤ r' → branchOf r = true → branchOf r' = true) ∧
  (∀ s t : State, exec .bsel s = .next t →
    (s.res.toInt = 10000 → t.br = true) ∧ (s.res.toInt = 9999 → t.br = false) ∧ (s.res.toInt < 0 → t.br = false))

/-- R152, R153: `EST` loads the linear estimate, clamped into [0, 8500] in the positive branch only, clears `IT`, and
writes nothing else; the product never wraps; the quotient is minus that of the deficit; the printed corner cases; of
the single-step commands only `EST` clears `IT` (besides it only `RST` does). -/
def Obligations.EstLoadsTheLinearEstimate : Prop :=
  decode 0x09000000#32 = .legal .est ∧
  (∀ (s : State) (e : Int), Int.tdiv ((s.res.toInt - 10000) * 100000000) 390830000 = e → ∃ t,
    exec .est s = .next t ∧ t = { s with t := t.t, it := 0 } ∧
    t.t.toInt = if s.br then (if e < 0 then 0 else if e > 8500 then 8500 else e) else e) ∧
  (∀ s t : State, exec .est s = .next t →
    (s.br = true → s.res.toInt = 10000 → t.t.toInt = 0) ∧
    (s.br = true → s.res.toInt = 50000 → t.t.toInt = 8500) ∧
    (s.br = true → s.res.toInt < 10000 → t.t.toInt = 0) ∧
    (s.br = false → s.res.toInt = 0 → t.t.toInt = -2558) ∧
    (s.br = false → s.res.toInt = 9999 → t.t.toInt = 0) ∧
    (s.br = true → s.res.toInt = 13850 → t.t.toInt = 985)) ∧
  (∀ r : Int, -2147483648 ≤ r → r < 2147483648 → ((r - 10000) * 100000000).natAbs < 220000000000000000) ∧
  (∀ r : Int, Int.tdiv ((r - 10000) * 100000000) 390830000 = -Int.tdiv ((10000 - r) * 100000000) 390830000) ∧
  (∀ (i : Instr) (s t : State), exec i s = .next t → s.it ≠ 0 → t.it = 0 → i = .est ∨ i = .rst)

/-- R154 to R157: `NRIT` does nothing once `IT` has reached 4 (positive) or 3 (negative); below the bound it writes
`F` and `D` at the old estimate, and then: a zero derivative stops the positive branch (`IT` to 4) and skips the
negative update; otherwise the new estimate, clamped into [0, 8500] in the positive branch, with gain 10 and no clamp
in the negative one, and `IT` one more. Nothing else changes. `F` and `D` are those of an `EVAL`; the printed example. -/
def Obligations.NritRunsOneBoundedIteration : Prop :=
  decode 0x0B000000#32 = .legal .nrit ∧
  (∀ s : State, (if s.br then 4 else 3) ≤ s.it.toNat → exec .nrit s = .next s) ∧
  (∀ (s : State) (f d : Int), s.it.toNat < (if s.br then 4 else 3) →
    residualAt Config.cfg s.br s.t.toInt s.res.toInt = f → derivativeAt Config.cfg s.br s.t.toInt = d → d = 0 →
    exec .nrit s = .next
      { s with f := BitVec.ofInt 64 f, d := 0, it := if s.br then 4 else s.it + 1 }) ∧
  (∀ (s : State) (f d : Int), s.it.toNat < (if s.br then 4 else 3) →
    residualAt Config.cfg s.br s.t.toInt s.res.toInt = f → derivativeAt Config.cfg s.br s.t.toInt = d → d ≠ 0 →
    exec .nrit s = .next
      { s with
        f := BitVec.ofInt 64 f
        d := BitVec.ofInt 64 d
        t := BitVec.ofInt 64
          (if s.br then clamp (wrap64 (s.t.toInt - tdiv f d)) 0 8500
           else s.t.toInt - tdiv (wrap64 (10 * f)) d)
        it := s.it + 1 }) ∧
  (∀ s e t : State, s.it.toNat < (if s.br then 4 else 3) → exec .eval s = .next e → exec .nrit s = .next t →
    t.f = e.f ∧ t.d = e.d) ∧
  (∀ s t : State, s.br = true → s.res = 13850 → s.t = 985 → s.it = 0 → exec .nrit s = .next t →
    t.f.toInt = -5635499375 ∧ t.d.toInt = 379453250 ∧ t.t = 999 ∧ t.it = 1)

/-- R136: an `EVAL` changes nothing that a following `NRIT` below its bound depends on. -/
def Obligations.EvalDoesNotDisturbTheNextNrit : Prop :=
  ∀ s e : State, s.it.toNat < (if s.br then 4 else 3) → exec .eval s = .next e → exec .nrit e = exec .nrit s

/-- R160 (derived in the spec): stopping at a zero derivative (positive branch) gives the same estimate as skipping the
update in every remaining pass, for every configuration: a branch's passes are the iterated skipping step. -/
def Obligations.StoppingAndSkippingAgree : Prop :=
  ∀ (c : Config.Cfg) (b : Bool) (r t : Int) (n : Nat),
    convertPasses c b r n t =
      (fun u => if derivativeAt c b u = 0 then u
        else stepEstimate b u (residualAt c b u r) (derivativeAt c b u))^[n] t

/-- R159 (derived in the spec): from `IT = 0` any number of `NRIT` beyond four does nothing more. -/
def Obligations.AtMostFourIterationsAfterAnEstimate : Prop :=
  ∀ (s : State) (n : Nat), s.it = 0 →
    runInstrs (List.replicate (4 + n) .nrit) s = runInstrs (List.replicate 4 .nrit) s ∧
    ∃ t, runInstrs (List.replicate 4 .nrit) s = .next t ∧ t.it.toNat = if s.br then 4 else 3

/-- R158: `CLMP` writes `TEMP` with the full-width signed `T` clamped into [−2000, 8500] and nothing else; the printed
corner cases. -/
def Obligations.ClmpClampsTheWholeEstimate : Prop :=
  decode 0x0C000000#32 = .legal .clmp ∧
  (∀ s : State, ∃ t, exec .clmp s = .next t ∧ t = { s with temp := t.temp } ∧
    t.temp.toInt =
      (if s.t.toInt < -2000 then -2000 else if s.t.toInt > 8500 then 8500 else s.t.toInt) ∧
    (s.t.toInt = -9223372036854775808 → t.temp.toInt = -2000) ∧
    (s.t.toInt = 9223372036854775807 → t.temp.toInt = 8500) ∧
    (s.t.toInt = -2421 → t.temp.toInt = -2000))

/-! ### The converter and the cycle (44_converter) -/

/-- R171: `CVT` is the composition of the single-step commands: the same state results from `BSEL`, `EST`, four `NRIT`
(those beyond the bound do nothing) and `CLMP`. -/
def Obligations.CvtIsTheCompositionOfTheSingleSteps : Prop :=
  ∀ s : State, exec .cvt s = runInstrs [.bsel, .est, .nrit, .nrit, .nrit, .nrit, .clmp] s

/-- R170, R171: `CVT` writes `TEMP` with `Convert(RES)`, `BR` with the branch test, `IT` with the bound, `T` with the
last estimate before the final clamp, `F` and `D` with the residual and the derivative at the estimate before the last
pass's update, and nothing else. (Where a zero derivative stops the passes, the remaining ones leave the estimate.) -/
def Obligations.CvtComputesConvertOfRes : Prop :=
  decode 0x0D000000#32 = .legal .cvt ∧
  ∀ (s : State) (b : Bool) (r e : Int),
    s.res.toInt = r → decide (10000 ≤ r) = b → estimate Config.cfg b r = e → ∃ t, exec .cvt s = .next t ∧
      t = { s with temp := t.temp, br := b, t := t.t, f := t.f, d := t.d, it := if b then 4 else 3 } ∧
      t.temp.toInt = convert Config.cfg r ∧
      t.temp.toInt = (if t.t.toInt < -2000 then -2000 else if t.t.toInt > 8500 then 8500 else t.t.toInt) ∧
      t.t.toInt = convertPasses Config.cfg b r (if b then 4 else 3) e ∧
      t.f.toInt = residualAt Config.cfg b (convertPasses Config.cfg b r (if b then 3 else 2) e) r ∧
      t.d.toInt = derivativeAt Config.cfg b (convertPasses Config.cfg b r (if b then 3 else 2) e)

/-- R29: a conversion reads no working register it has not itself written: with equal `RES`, the registers it writes
end equal, whatever the two states held before. -/
def Obligations.CvtResultDependsOnResAlone : Prop :=
  ∀ s s' t t' : State, s.res = s'.res → exec .cvt s = .next t → exec .cvt s' = .next t' →
    t.temp = t'.temp ∧ t.br = t'.br ∧ t.t = t'.t ∧ t.f = t'.f ∧ t.d = t'.d ∧ t.it = t'.it

/-- R24: `TEMP` is written only by `CLMP`, `CVT`, `MEAS` and reset, and what the three write lies in [−2000, 8500]
regardless of intermediate arithmetic. -/
def Obligations.TempIsWrittenOnlyThroughTheFinalClamp : Prop :=
  (∀ (i : Instr) (s t : State), exec i s = .next t → t.temp ≠ s.temp →
    i = .clmp ∨ i = .cvt ∨ i = .meas ∨ i = .rst) ∧
  (∀ (i : Instr) (s t : State), exec i s = .next t → i = .clmp ∨ i = .cvt ∨ i = .meas →
    -2000 ≤ t.temp.toInt ∧ t.temp.toInt ≤ 8500)

/-- R172, R173: `MEAS` is `RDRTD`, `SCALE`, `CVT`; with drawn bytes `msb`, `lsb` it leaves `RAW`, `FAULT`, `RES` and
`TEMP` as functions of the two bytes, converting on a fault cycle too; the events are the read's, then the clear
sequence's on a fault; `ILL` and the ports' other records stay. -/
def Obligations.MeasReadsScalesAndConverts : Prop :=
  decode 0x0E000000#32 = .legal .meas ∧
  (∀ s : State, exec .meas s = runInstrs [.rdrtd, .scale, .cvt] s) ∧
  (∀ (s : State) (msb lsb : Byte), drawAt s 1 = msb → drawAt s 2 = lsb → ∃ t, exec .meas s = .next t ∧
    t.raw.toNat = (256 * msb.toNat + lsb.toNat) / 2 ∧
    t.fault.toNat = lsb.toNat % 2 ∧
    t.res.toInt = ((t.raw.toNat * 43000 / 32768 : Nat) : Int) ∧ 0 ≤ t.res.toInt ∧ t.res.toInt ≤ 42998 ∧
    t.temp.toInt = convert Config.cfg t.res.toInt ∧
    t.br = decide (10000 ≤ t.res.toInt) ∧
    t.it.toNat = (if 10000 ≤ t.res.toInt then 4 else 3) ∧
    t.trace = s.trace ++ ([.sel, .xfer 0x01#8 (drawAt s 0), .xfer 0x00#8 msb, .xfer 0x00#8 lsb, .desel] ++
      if lsb.toNat % 2 = 1 then [.sel, .xfer 0x80#8 (drawAt s 3), .xfer 0xD0#8 (drawAt s 4), .desel] else []) ∧
    t.ill = s.ill ∧ t.sel = false ∧ t.responses = s.responses ∧ t.pending = s.pending ∧ t.idx = s.idx)

/-- R172: the results of a cycle are a function of the two drawn bytes only: two states that agree on those bytes end
with equal `RAW`, `FAULT`, `RES`, `TEMP`, whatever else they hold. -/
def Obligations.MeasResultsDependOnTheTwoBytesOnly : Prop :=
  ∀ s s' t t' : State, drawAt s 1 = drawAt s' 1 → drawAt s 2 = drawAt s' 2 →
    exec .meas s = .next t → exec .meas s' = .next t' →
      t.raw = t'.raw ∧ t.fault = t'.fault ∧ t.res = t'.res ∧ t.temp = t'.temp

/-- R96, R186: a timeout on both data bytes reads as zero, sends no clear sequence, and a cycle then ends at the cold
clamp. -/
def Obligations.TimeoutReadsAsZeroAndEndsAtTheColdClamp : Prop :=
  ∀ s : State, drawAt s 1 = Config.TIMEOUT_SENTINEL → drawAt s 2 = Config.TIMEOUT_SENTINEL →
    ∃ t, exec .meas s = .next t ∧ t.raw = 0 ∧ t.fault = false ∧ t.res = 0 ∧ t.temp.toInt = -2000 ∧
      t.trace = s.trace ++ [.sel, .xfer 0x01#8 (drawAt s 0), .xfer 0x00#8 0x00#8, .xfer 0x00#8 0x00#8, .desel]

/-- R175 (a) and R176 (derived in the spec): the ice point converts to 0 from both sides, and the thresholds of the
final clamp. -/
def Obligations.IcePointAndClampThresholds : Prop :=
  convert Config.cfg 9999 = 0 ∧ convert Config.cfg 10000 = 0 ∧ convert Config.cfg 10001 = 0 ∧
  convert Config.cfg 1857 = -1999 ∧ convert Config.cfg 39048 = 8499 ∧ convert Config.cfg 13850 = 999

/-- R171, R176 (derived in the spec): the conversion saturates: 8500 for every `RES ≥ 39049`, −2000 for every `RES`
from 0 to 1856. -/
def Obligations.ConversionSaturatesAtBothEnds : Prop :=
  (∀ r : Int, 39049 ≤ r → r < 2147483648 → convert Config.cfg r = 8500) ∧
  (∀ r : Int, 0 ≤ r → r ≤ 1856 → convert Config.cfg r = -2000)

/-- R174, positive branch (derived in the spec): for every `RES` from 10000 up, `CVT` computes in the exact integers: no
wrap changes its argument and the zero-derivative arm is never taken. `F` and `D` are those of the fourth pass. -/
def Obligations.PositiveBranchComputesInExactIntegers : Prop :=
  ∀ (s : State) (e u : Int), 10000 ≤ s.res.toInt →
    clamp (Int.tdiv ((s.res.toInt - 10000) * 100000000) 390830000) 0 8500 = e →
    exactPosPasses s.res.toInt 3 e = u →
    ∃ t, exec .cvt s = .next t ∧ t.temp.toInt = exactPosConvert s.res.toInt ∧ t.t.toInt = t.temp.toInt ∧
      t.f.toInt = exactResidual true u s.res.toInt ∧ t.d.toInt = exactDerivative true u

/-! ### Whole-machine rules (10_state R33, R35, 20_memory R54, 60_exceptions) -/

/-- R33 (derived in the spec): the access table: a command changes no item its row does not mark as written. -/
def Obligations.CommandsWriteOnlyTheirTabledItems : Prop :=
  ∀ (i : Instr) (s t : State) (x : Item), exec i s = .next t → x ∉ writtenItems i → sameItem x s t

/-- R230 (derived in the spec): the exchanges each command makes, and no command takes a byte it does not exchange. The counter
and the list of bytes are the model's own (log 1). -/
def Obligations.CommandsMakeTheTabledExchanges : Prop :=
  ∀ (i : Instr) (s t : State), exec i s = .next t →
    t.xfers = s.xfers + exchangeCount i s ∧ t.draws = s.draws.drop (exchangeCount i s)

/-- R185 to R190: which conditions arise. A device fault exactly when a decode leaves `FAULT` set; `IllegalCommand`
exactly for a reserved word; a timeout never as an event (R186); a zero derivative exactly when an `NRIT` below its
bound, or a pass of `CVT`, finds the derivative 0 (R188); a final clamp exactly when the last estimate is out of
[−2000, 8500] (R189; the clamps of the positive branch are log 12); those of `MEAS` are those of its read and then those
of its conversion (R197); and each is raised by the commands of its row only. -/
def Obligations.ConditionsAreThoseOfTheCauseTable : Prop :=
  (∀ (i : Instr) (s t : State), exec i s = .next t → i = .rdrtd ∨ i = .meas ∨ (∃ msb lsb, i = .dec msb lsb) →
    (.devFault ∈ conditions i s ↔ t.fault = true)) ∧
  (∀ (w : CmdWord) (s : State), .illegalCommand ∈ wordConditions w s ↔ ∃ why, decode w = .reserved why) ∧
  (∀ (w : CmdWord) (s : State), Anomaly.timeout ∉ wordConditions w s) ∧
  (∀ s : State, .dZero ∈ conditions .nrit s ↔
    (s.it.toNat < if s.br then 4 else 3) ∧ derivativeAt Config.cfg s.br s.t.toInt = 0) ∧
  (∀ (s : State) (b : Bool) (r : Int), s.res.toInt = r → decide (10000 ≤ r) = b →
    (.dZero ∈ conditions .cvt s ↔ ∃ k : Nat, (k < if b then 4 else 3) ∧
      derivativeAt Config.cfg b (convertPasses Config.cfg b r k (estimate Config.cfg b r)) = 0)) ∧
  (∀ s : State, .range ∈ conditions .clmp s ↔ (s.t.toInt < -2000 ∨ 8500 < s.t.toInt)) ∧
  (∀ (i : Instr) (s t : State), exec i s = .next t → i = .cvt ∨ i = .meas → t.res.toInt < 10000 →
    (.range ∈ conditions i s ↔ (t.t.toInt < -2000 ∨ 8500 < t.t.toInt))) ∧
  (∀ s s1 s2 : State, exec .rdrtd s = .next s1 → exec .scale s1 = .next s2 →
    conditions .meas s = conditions .rdrtd s ++ conditions .cvt s2) ∧
  (∀ (i : Instr) (s : State), .devFault ∈ conditions i s → i = .rdrtd ∨ i = .meas ∨ ∃ msb lsb, i = .dec msb lsb) ∧
  (∀ (i : Instr) (s : State), .dZero ∈ conditions i s → i = .nrit ∨ i = .cvt ∨ i = .meas)

/-- R35 (derived in the spec): `TEMP` in [−2000, 8500], `IT` at most 4 and the select released hold after every step
from a state in which they hold. -/
def Obligations.StepKeepsTheRegisterRanges : Prop :=
  ∀ s t : State, RegisterRanges s → step s = .next t → RegisterRanges t

/-- R35: the reset state has the ranges, whatever the host and the environment will give. -/
def Obligations.ResetHasTheRegisterRanges : Prop :=
  ∀ (host : List HostAction) (bytes : List Byte),
    RegisterRanges (startRun host bytes) ∧ ResWritable (startRun host bytes) ∧
    sequencesOnly Config.cfg (startRun host bytes).trace = true

/-- R54 (derived in the spec): the trace stays a list of whole sequences, each a configuration write or an RTD read with
the configured bytes; none is nested or cut, after every step from such a trace. -/
def Obligations.StepKeepsTheTraceInWholeSequences : Prop :=
  ∀ s t : State, sequencesOnly Config.cfg s.trace = true → step s = .next t →
    sequencesOnly Config.cfg t.trace = true

/-- R114 (decision D30): `RES` stays within what a command can write, −8388608 to 8388607. -/
def Obligations.StepKeepsResWritable : Prop :=
  ∀ s t : State, ResWritable s → step s = .next t → ResWritable t

/-- R35, R54, R114, R231 (derived in the spec): every run from reset, with any host actions and any bytes from the
environment, goes on for as many steps as asked, and keeps the ranges and the whole sequences. -/
def Obligations.EveryRunFromResetKeepsTheInvariants : Prop :=
  ∀ (host : List HostAction) (bytes : List Byte) (k : Nat),
    ∃ t : State, Host.Core.run core k (startRun host bytes) = .next t ∧ RegisterRanges t ∧ ResWritable t ∧
      sequencesOnly Config.cfg t.trace = true

/-- R32 (c): the configuration record is a parameter of the step function; the machine is that step function at the
decided record (00_scope R10), command by command. -/
def Obligations.StepIsTheStepUnderTheDecidedConfiguration : Prop :=
  (∀ (i : Instr) (s : State), exec i s = execUnder Config.cfg i s) ∧ ∀ s : State, step s = stepUnder Config.cfg s

/-- R32 (c), R35, R54: under every configuration each step answers a next state and keeps the register ranges and the
whole sequences of that configuration's bytes: these do not rest on the decided literals. -/
def Obligations.InvariantsHoldUnderEveryConfiguration : Prop :=
  (∀ (c : Config.Cfg) (s : State), ∃ t, stepUnder c s = .next t) ∧
  (∀ (c : Config.Cfg) (s t : State), RegisterRanges s → sequencesOnly c s.trace = true → stepUnder c s = .next t →
    RegisterRanges t ∧ sequencesOnly c t.trace = true)

/-- R189: the clamps of the positive branch. The model's reading of R185 against R189 (log 12) counts them: `EST` meets
`AN_RANGE` exactly when its estimate is out of [0, 8500] with `BR` = 1; `NRIT` exactly when it runs below its bound with
`BR` = 1, the derivative is not 0 and the new estimate is out; `CVT` with `RES ≥ 10000` exactly when the one or the
other happens inside it; and no command but these, `CLMP` and `MEAS` meets it. -/
def Obligations.PositiveClampsMeetTheRangeCondition : Prop :=
  (∀ (s : State) (e : Int), Int.tdiv ((s.res.toInt - 10000) * 100000000) 390830000 = e →
    (.range ∈ conditions .est s ↔ s.br = true ∧ (e < 0 ∨ 8500 < e))) ∧
  (∀ (s : State) (f d : Int),
    residualAt Config.cfg s.br s.t.toInt s.res.toInt = f → derivativeAt Config.cfg s.br s.t.toInt = d →
    (.range ∈ conditions .nrit s ↔
      s.br = true ∧ s.it.toNat < 4 ∧ d ≠ 0 ∧
        (wrap64 (s.t.toInt - tdiv f d) < 0 ∨ 8500 < wrap64 (s.t.toInt - tdiv f d)))) ∧
  (∀ (s : State) (r e : Int) (u : Nat → Int), s.res.toInt = r → 10000 ≤ r →
    Int.tdiv ((r - 10000) * 100000000) 390830000 = e →
    (∀ k, convertPasses Config.cfg true r k (clamp e 0 8500) = u k) →
    (.range ∈ conditions .cvt s ↔ 8500 < e ∨ ∃ k : Nat, k < 4 ∧ dPos Config.cfg (u k) ≠ 0 ∧
      (rawStepPos (u k) (fPos Config.cfg (u k) r) (dPos Config.cfg (u k)) < 0 ∨
        8500 < rawStepPos (u k) (fPos Config.cfg (u k) r) (dPos Config.cfg (u k))))) ∧
  (∀ (i : Instr) (s : State), .range ∈ conditions i s → i = .est ∨ i = .nrit ∨ i = .clmp ∨ i = .cvt ∨ i = .meas)

/-- R25: `STATUS` is the composite of `ILL`, `BR`, `FAULT`; a command other than reset changes at most one of its fields.
R25 says so of every command; the rule of `MEAS` (R172), with R26, R27 and R33, writes two, so `MEAS` is left out here
and stated by itself (log 11): each of the three commands it is made of changes at most one, the read `FAULT`, the
scaling none, the conversion `BR`. Reset clears all three. -/
def Obligations.StatusFieldsChangeOneAtATimeExceptInMeas : Prop :=
  (∀ s : State, (statusWord s).toNat = 4 * s.ill.toNat + 2 * s.br.toNat + s.fault.toNat) ∧
  (∀ (i : Instr) (s t : State), exec i s = .next t → i ≠ .rst → i ≠ .meas →
    (t.fault = s.fault ∧ t.br = s.br) ∨ (t.fault = s.fault ∧ t.ill = s.ill) ∨ (t.br = s.br ∧ t.ill = s.ill)) ∧
  (∀ s : State, ∃ s1 s2 t, exec .meas s = .next t ∧
    exec .rdrtd s = .next s1 ∧ s1.br = s.br ∧ s1.ill = s.ill ∧
    exec .scale s1 = .next s2 ∧ statusWord s2 = statusWord s1 ∧
    exec .cvt s2 = .next t ∧ t.fault = s2.fault ∧ t.ill = s2.ill) ∧
  (∀ s : State, ∃ t, exec .rst s = .next t ∧ statusWord t = 0) ∧
  (∀ (s : State) (rest : List HostAction), s.pending = .resetPin :: rest → ∃ t, step s = .next t ∧ statusWord t = 0)
end

