-- ==== Sys2Proof/Laws/Arith.lean ====
section
/-!
SUPPORT. The laws of `wrap64`, `tdiv`, `clamp` and of integers in registers that proofs cite.
-/
namespace Sys2Proof.Machine

theorem wrap64_range (z : Int) : -9223372036854775808 ≤ wrap64 z ∧ wrap64 z < 9223372036854775808 := by
  unfold wrap64
  constructor
  · have := @Int.le_bmod z 18446744073709551616 (by decide)
    omega
  · have := @Int.bmod_lt z 18446744073709551616 (by decide)
    omega

/-- `wrap64` changes nothing inside the 64-bit range (42_evaluator R138, 44_converter R174). -/
theorem wrap64_of_range {z : Int} (lo : -9223372036854775808 ≤ z) (hi : z < 9223372036854775808) : wrap64 z = z := by
  unfold wrap64
  exact Int.bmod_eq_of_le (by omega) (by omega)

@[simp] theorem wrap64_wrap64 (z : Int) : wrap64 (wrap64 z) = wrap64 z :=
  wrap64_of_range (wrap64_range z).1 (wrap64_range z).2

@[simp] theorem toInt_toWide (z : Int) : (toWide z).toInt = wrap64 z := by
  unfold toWide wrap64
  rw [BitVec.toInt_ofInt]

@[simp] theorem toWide_toInt (v : Wide) : toWide v.toInt = v := BitVec.ofInt_toInt

@[simp] theorem toWide_wrap64 (z : Int) : toWide (wrap64 z) = toWide z := by
  rw [← BitVec.toInt_inj]; simp

theorem toWide_eq_zero_iff (z : Int) : toWide z = 0#64 ↔ wrap64 z = 0 := by
  rw [← BitVec.toInt_inj]; simp

@[simp] theorem wrap64_tdiv (a b : Int) : wrap64 (tdiv a b) = tdiv a b := by
  unfold tdiv; simp

theorem clamp_range (v : Int) {lo hi : Int} (h : lo ≤ hi) : lo ≤ clamp v lo hi ∧ clamp v lo hi ≤ hi := by
  unfold clamp
  split
  · omega
  · split <;> omega

theorem clamp_of_mem {v lo hi : Int} (l : lo ≤ v) (h : v ≤ hi) : clamp v lo hi = v := by
  unfold clamp
  rw [if_neg (by omega), if_neg (by omega)]

theorem finalTemp_range (t : Int) : -2000 ≤ finalTemp t ∧ finalTemp t ≤ 8500 :=
  clamp_range t (by decide)

/-- The clamped temperature fits the 16-bit register (43_rootfinder R158). -/
@[simp] theorem toInt_toTemp (t : Int) : (toTemp (finalTemp t)).toInt = finalTemp t := by
  have h := finalTemp_range t
  rw [toTemp, BitVec.toInt_ofInt]
  exact Int.bmod_eq_of_le (by omega) (by omega)

@[simp] theorem wrap64_fPos (c : Config.Cfg) (t r : Int) : wrap64 (fPos c t r) = fPos c t r := by simp [fPos]

@[simp] theorem wrap64_fNeg (c : Config.Cfg) (t r : Int) : wrap64 (fNeg c t r) = fNeg c t r := by simp [fNeg]

@[simp] theorem wrap64_dPos (c : Config.Cfg) (t : Int) : wrap64 (dPos c t) = dPos c t := by simp [dPos]

@[simp] theorem wrap64_dNeg (c : Config.Cfg) (t : Int) : wrap64 (dNeg c t) = dNeg c t := by simp [dNeg]

@[simp] theorem wrap64_residualAt (c : Config.Cfg) (b : Bool) (t r : Int) :
    wrap64 (residualAt c b t r) = residualAt c b t r := by cases b <;> simp [residualAt]

@[simp] theorem wrap64_derivativeAt (c : Config.Cfg) (b : Bool) (t : Int) :
    wrap64 (derivativeAt c b t) = derivativeAt c b t := by cases b <;> simp [derivativeAt]

@[simp] theorem wrap64_linearEstimate (c : Config.Cfg) (r : Int) :
    wrap64 (linearEstimate c r) = linearEstimate c r := by simp [linearEstimate]

@[simp] theorem wrap64_posClamp (v : Int) :
    wrap64 (clamp v Config.TPOS_LO Config.TMAX) = clamp v Config.TPOS_LO Config.TMAX := by
  have h := clamp_range v (show Config.TPOS_LO ≤ Config.TMAX by decide)
  have h0 : Config.TPOS_LO = 0 := rfl
  have h1 : Config.TMAX = 8500 := rfl
  exact wrap64_of_range (by omega) (by omega)

@[simp] theorem wrap64_estimate (c : Config.Cfg) (b : Bool) (r : Int) : wrap64 (estimate c b r) = estimate c b r := by
  cases b <;> simp [estimate]

@[simp] theorem wrap64_stepEstimate (b : Bool) (t f d : Int) :
    wrap64 (stepEstimate b t f d) = stepEstimate b t f d := by cases b <;> simp [stepEstimate]

/-- A scaled code that fits the register is read back as it is (00_scope R13, log 16). -/
theorem toInt_toRes_of_fits {c : Config.Cfg} (h : c.ScaledCodesFit) (raw : RawCode) :
    (toRes (scale c raw.toNat)).toInt = (scale c raw.toNat : Int) := by
  have hraw : raw.toNat ≤ 32767 := Nat.le_of_lt_succ raw.isLt
  have hle : scale c raw.toNat ≤ 32767 * c.RREF_C / c.ADC_FS :=
    Nat.div_le_div_right (Nat.mul_le_mul_right _ hraw)
  have hfit : 32767 * c.RREF_C / c.ADC_FS < 2147483648 := h
  rw [toRes, ← BitVec.ofInt_natCast, BitVec.toInt_ofInt]
  exact Int.bmod_eq_of_le (by omega) (by omega)

theorem cfg_scaledCodesFit : Config.cfg.ScaledCodesFit := by
  unfold Config.Cfg.ScaledCodesFit
  decide

/-- A scaled code with the decided parameters: at most 42998, so it fits `RES` (41_scaler_and_moves R112). -/
theorem scale_le (raw : RawCode) : scale Config.cfg raw.toNat ≤ 42998 := by
  have h := raw.isLt
  simp only [scale, Config.cfg]
  omega

@[simp] theorem toInt_toRes (raw : RawCode) :
    (toRes (scale Config.cfg raw.toNat)).toInt = (scale Config.cfg raw.toNat : Int) :=
  toInt_toRes_of_fits cfg_scaledCodesFit raw

theorem iterBound_le (b : Bool) : 3 ≤ iterBound b ∧ iterBound b ≤ 4 := by cases b <;> decide

end Sys2Proof.Machine
end

