-- ==== Sys2Proof/Laws/Encoding.lean ====
section
/-!
SUPPORT. The fields of an encoded command (30_encoding R70 to R72).
-/
namespace Sys2Proof

/-- The word of a command, bit by bit. -/
theorem encode_getLsbD (i : Instr) (k : Nat) :
    (encode i).getLsbD k = if k < 24 then (operandOf i).getLsbD k else (opcodeOf i).getLsbD (k - 24) :=
  BitVec.getLsbD_append

/-- The operand field of `DEC`, bit by bit. -/
theorem operandOf_dec_getLsbD (msb lsb : Byte) (k : Nat) :
    (operandOf (.dec msb lsb)).getLsbD k =
      if k < 8 then lsb.getLsbD k else if k < 16 then msb.getLsbD (k - 8) else false := by
  have h : (operandOf (.dec msb lsb)).getLsbD k =
      if k < 8 then lsb.getLsbD k else (0#8 ++ msb).getLsbD (k - 8) := BitVec.getLsbD_append
  rw [h, BitVec.getLsbD_append]
  by_cases h8 : k < 8
  · simp [h8]
  · have h16 : k - 8 < 8 ↔ k < 16 := by omega
    simp [h8, h16]

/-- The operand field of `RD`, bit by bit. -/
theorem operandOf_rd_getLsbD (reg : BitVec 4) (k : Nat) :
    (operandOf (.rd reg)).getLsbD k = if k < 4 then reg.getLsbD k else false := by
  have h : (operandOf (.rd reg)).getLsbD k = if k < 4 then reg.getLsbD k else (0#20).getLsbD (k - 4) :=
    BitVec.getLsbD_append
  rw [h]
  simp

/-- The opcode field of an encoded command. -/
@[simp] theorem opField_encode (i : Instr) : opField (encode i) = opcodeOf i := by
  apply BitVec.eq_of_getLsbD_eq
  intro k hk
  simp [opField, encode_getLsbD, hk]

/-- The operand field of an encoded command. -/
@[simp] theorem operandField_encode (i : Instr) : operandField (encode i) = operandOf i := by
  apply BitVec.eq_of_getLsbD_eq
  intro k hk
  simp [operandField, encode_getLsbD, hk]

end Sys2Proof
end

