-- ==== Sys2Proof/Laws/State.lean ====
section
/-!
SUPPORT. One lemma for each field of State and each update of it: what the update leaves in the field.
-/
namespace Sys2Proof.Machine

/-! ### setRaw -/

@[simp] theorem setRaw_raw (v : RawCode) (s : State) : (setRaw v s).raw = v := rfl
@[simp] theorem setRaw_res (v : RawCode) (s : State) : (setRaw v s).res = s.res := rfl
@[simp] theorem setRaw_temp (v : RawCode) (s : State) : (setRaw v s).temp = s.temp := rfl
@[simp] theorem setRaw_fault (v : RawCode) (s : State) : (setRaw v s).fault = s.fault := rfl
@[simp] theorem setRaw_br (v : RawCode) (s : State) : (setRaw v s).br = s.br := rfl
@[simp] theorem setRaw_ill (v : RawCode) (s : State) : (setRaw v s).ill = s.ill := rfl
@[simp] theorem setRaw_t (v : RawCode) (s : State) : (setRaw v s).t = s.t := rfl
@[simp] theorem setRaw_f (v : RawCode) (s : State) : (setRaw v s).f = s.f := rfl
@[simp] theorem setRaw_d (v : RawCode) (s : State) : (setRaw v s).d = s.d := rfl
@[simp] theorem setRaw_it (v : RawCode) (s : State) : (setRaw v s).it = s.it := rfl
@[simp] theorem setRaw_trace (v : RawCode) (s : State) : (setRaw v s).trace = s.trace := rfl
@[simp] theorem setRaw_sel (v : RawCode) (s : State) : (setRaw v s).sel = s.sel := rfl
@[simp] theorem setRaw_responses (v : RawCode) (s : State) : (setRaw v s).responses = s.responses := rfl
@[simp] theorem setRaw_pending (v : RawCode) (s : State) : (setRaw v s).pending = s.pending := rfl
@[simp] theorem setRaw_idx (v : RawCode) (s : State) : (setRaw v s).idx = s.idx := rfl
@[simp] theorem setRaw_draws (v : RawCode) (s : State) : (setRaw v s).draws = s.draws := rfl
@[simp] theorem setRaw_xfers (v : RawCode) (s : State) : (setRaw v s).xfers = s.xfers := rfl

/-! ### setRes -/

@[simp] theorem setRes_raw (v : Resistance) (s : State) : (setRes v s).raw = s.raw := rfl
@[simp] theorem setRes_res (v : Resistance) (s : State) : (setRes v s).res = v := rfl
@[simp] theorem setRes_temp (v : Resistance) (s : State) : (setRes v s).temp = s.temp := rfl
@[simp] theorem setRes_fault (v : Resistance) (s : State) : (setRes v s).fault = s.fault := rfl
@[simp] theorem setRes_br (v : Resistance) (s : State) : (setRes v s).br = s.br := rfl
@[simp] theorem setRes_ill (v : Resistance) (s : State) : (setRes v s).ill = s.ill := rfl
@[simp] theorem setRes_t (v : Resistance) (s : State) : (setRes v s).t = s.t := rfl
@[simp] theorem setRes_f (v : Resistance) (s : State) : (setRes v s).f = s.f := rfl
@[simp] theorem setRes_d (v : Resistance) (s : State) : (setRes v s).d = s.d := rfl
@[simp] theorem setRes_it (v : Resistance) (s : State) : (setRes v s).it = s.it := rfl
@[simp] theorem setRes_trace (v : Resistance) (s : State) : (setRes v s).trace = s.trace := rfl
@[simp] theorem setRes_sel (v : Resistance) (s : State) : (setRes v s).sel = s.sel := rfl
@[simp] theorem setRes_responses (v : Resistance) (s : State) : (setRes v s).responses = s.responses := rfl
@[simp] theorem setRes_pending (v : Resistance) (s : State) : (setRes v s).pending = s.pending := rfl
@[simp] theorem setRes_idx (v : Resistance) (s : State) : (setRes v s).idx = s.idx := rfl
@[simp] theorem setRes_draws (v : Resistance) (s : State) : (setRes v s).draws = s.draws := rfl
@[simp] theorem setRes_xfers (v : Resistance) (s : State) : (setRes v s).xfers = s.xfers := rfl

/-! ### setTemp -/

@[simp] theorem setTemp_raw (v : Temperature) (s : State) : (setTemp v s).raw = s.raw := rfl
@[simp] theorem setTemp_res (v : Temperature) (s : State) : (setTemp v s).res = s.res := rfl
@[simp] theorem setTemp_temp (v : Temperature) (s : State) : (setTemp v s).temp = v := rfl
@[simp] theorem setTemp_fault (v : Temperature) (s : State) : (setTemp v s).fault = s.fault := rfl
@[simp] theorem setTemp_br (v : Temperature) (s : State) : (setTemp v s).br = s.br := rfl
@[simp] theorem setTemp_ill (v : Temperature) (s : State) : (setTemp v s).ill = s.ill := rfl
@[simp] theorem setTemp_t (v : Temperature) (s : State) : (setTemp v s).t = s.t := rfl
@[simp] theorem setTemp_f (v : Temperature) (s : State) : (setTemp v s).f = s.f := rfl
@[simp] theorem setTemp_d (v : Temperature) (s : State) : (setTemp v s).d = s.d := rfl
@[simp] theorem setTemp_it (v : Temperature) (s : State) : (setTemp v s).it = s.it := rfl
@[simp] theorem setTemp_trace (v : Temperature) (s : State) : (setTemp v s).trace = s.trace := rfl
@[simp] theorem setTemp_sel (v : Temperature) (s : State) : (setTemp v s).sel = s.sel := rfl
@[simp] theorem setTemp_responses (v : Temperature) (s : State) : (setTemp v s).responses = s.responses := rfl
@[simp] theorem setTemp_pending (v : Temperature) (s : State) : (setTemp v s).pending = s.pending := rfl
@[simp] theorem setTemp_idx (v : Temperature) (s : State) : (setTemp v s).idx = s.idx := rfl
@[simp] theorem setTemp_draws (v : Temperature) (s : State) : (setTemp v s).draws = s.draws := rfl
@[simp] theorem setTemp_xfers (v : Temperature) (s : State) : (setTemp v s).xfers = s.xfers := rfl

/-! ### setFault -/

@[simp] theorem setFault_raw (v : Bool) (s : State) : (setFault v s).raw = s.raw := rfl
@[simp] theorem setFault_res (v : Bool) (s : State) : (setFault v s).res = s.res := rfl
@[simp] theorem setFault_temp (v : Bool) (s : State) : (setFault v s).temp = s.temp := rfl
@[simp] theorem setFault_fault (v : Bool) (s : State) : (setFault v s).fault = v := rfl
@[simp] theorem setFault_br (v : Bool) (s : State) : (setFault v s).br = s.br := rfl
@[simp] theorem setFault_ill (v : Bool) (s : State) : (setFault v s).ill = s.ill := rfl
@[simp] theorem setFault_t (v : Bool) (s : State) : (setFault v s).t = s.t := rfl
@[simp] theorem setFault_f (v : Bool) (s : State) : (setFault v s).f = s.f := rfl
@[simp] theorem setFault_d (v : Bool) (s : State) : (setFault v s).d = s.d := rfl
@[simp] theorem setFault_it (v : Bool) (s : State) : (setFault v s).it = s.it := rfl
@[simp] theorem setFault_trace (v : Bool) (s : State) : (setFault v s).trace = s.trace := rfl
@[simp] theorem setFault_sel (v : Bool) (s : State) : (setFault v s).sel = s.sel := rfl
@[simp] theorem setFault_responses (v : Bool) (s : State) : (setFault v s).responses = s.responses := rfl
@[simp] theorem setFault_pending (v : Bool) (s : State) : (setFault v s).pending = s.pending := rfl
@[simp] theorem setFault_idx (v : Bool) (s : State) : (setFault v s).idx = s.idx := rfl
@[simp] theorem setFault_draws (v : Bool) (s : State) : (setFault v s).draws = s.draws := rfl
@[simp] theorem setFault_xfers (v : Bool) (s : State) : (setFault v s).xfers = s.xfers := rfl

/-! ### setBr -/

@[simp] theorem setBr_raw (v : Bool) (s : State) : (setBr v s).raw = s.raw := rfl
@[simp] theorem setBr_res (v : Bool) (s : State) : (setBr v s).res = s.res := rfl
@[simp] theorem setBr_temp (v : Bool) (s : State) : (setBr v s).temp = s.temp := rfl
@[simp] theorem setBr_fault (v : Bool) (s : State) : (setBr v s).fault = s.fault := rfl
@[simp] theorem setBr_br (v : Bool) (s : State) : (setBr v s).br = v := rfl
@[simp] theorem setBr_ill (v : Bool) (s : State) : (setBr v s).ill = s.ill := rfl
@[simp] theorem setBr_t (v : Bool) (s : State) : (setBr v s).t = s.t := rfl
@[simp] theorem setBr_f (v : Bool) (s : State) : (setBr v s).f = s.f := rfl
@[simp] theorem setBr_d (v : Bool) (s : State) : (setBr v s).d = s.d := rfl
@[simp] theorem setBr_it (v : Bool) (s : State) : (setBr v s).it = s.it := rfl
@[simp] theorem setBr_trace (v : Bool) (s : State) : (setBr v s).trace = s.trace := rfl
@[simp] theorem setBr_sel (v : Bool) (s : State) : (setBr v s).sel = s.sel := rfl
@[simp] theorem setBr_responses (v : Bool) (s : State) : (setBr v s).responses = s.responses := rfl
@[simp] theorem setBr_pending (v : Bool) (s : State) : (setBr v s).pending = s.pending := rfl
@[simp] theorem setBr_idx (v : Bool) (s : State) : (setBr v s).idx = s.idx := rfl
@[simp] theorem setBr_draws (v : Bool) (s : State) : (setBr v s).draws = s.draws := rfl
@[simp] theorem setBr_xfers (v : Bool) (s : State) : (setBr v s).xfers = s.xfers := rfl

/-! ### setIll -/

@[simp] theorem setIll_raw (v : Bool) (s : State) : (setIll v s).raw = s.raw := rfl
@[simp] theorem setIll_res (v : Bool) (s : State) : (setIll v s).res = s.res := rfl
@[simp] theorem setIll_temp (v : Bool) (s : State) : (setIll v s).temp = s.temp := rfl
@[simp] theorem setIll_fault (v : Bool) (s : State) : (setIll v s).fault = s.fault := rfl
@[simp] theorem setIll_br (v : Bool) (s : State) : (setIll v s).br = s.br := rfl
@[simp] theorem setIll_ill (v : Bool) (s : State) : (setIll v s).ill = v := rfl
@[simp] theorem setIll_t (v : Bool) (s : State) : (setIll v s).t = s.t := rfl
@[simp] theorem setIll_f (v : Bool) (s : State) : (setIll v s).f = s.f := rfl
@[simp] theorem setIll_d (v : Bool) (s : State) : (setIll v s).d = s.d := rfl
@[simp] theorem setIll_it (v : Bool) (s : State) : (setIll v s).it = s.it := rfl
@[simp] theorem setIll_trace (v : Bool) (s : State) : (setIll v s).trace = s.trace := rfl
@[simp] theorem setIll_sel (v : Bool) (s : State) : (setIll v s).sel = s.sel := rfl
@[simp] theorem setIll_responses (v : Bool) (s : State) : (setIll v s).responses = s.responses := rfl
@[simp] theorem setIll_pending (v : Bool) (s : State) : (setIll v s).pending = s.pending := rfl
@[simp] theorem setIll_idx (v : Bool) (s : State) : (setIll v s).idx = s.idx := rfl
@[simp] theorem setIll_draws (v : Bool) (s : State) : (setIll v s).draws = s.draws := rfl
@[simp] theorem setIll_xfers (v : Bool) (s : State) : (setIll v s).xfers = s.xfers := rfl

/-! ### setT -/

@[simp] theorem setT_raw (v : Wide) (s : State) : (setT v s).raw = s.raw := rfl
@[simp] theorem setT_res (v : Wide) (s : State) : (setT v s).res = s.res := rfl
@[simp] theorem setT_temp (v : Wide) (s : State) : (setT v s).temp = s.temp := rfl
@[simp] theorem setT_fault (v : Wide) (s : State) : (setT v s).fault = s.fault := rfl
@[simp] theorem setT_br (v : Wide) (s : State) : (setT v s).br = s.br := rfl
@[simp] theorem setT_ill (v : Wide) (s : State) : (setT v s).ill = s.ill := rfl
@[simp] theorem setT_t (v : Wide) (s : State) : (setT v s).t = v := rfl
@[simp] theorem setT_f (v : Wide) (s : State) : (setT v s).f = s.f := rfl
@[simp] theorem setT_d (v : Wide) (s : State) : (setT v s).d = s.d := rfl
@[simp] theorem setT_it (v : Wide) (s : State) : (setT v s).it = s.it := rfl
@[simp] theorem setT_trace (v : Wide) (s : State) : (setT v s).trace = s.trace := rfl
@[simp] theorem setT_sel (v : Wide) (s : State) : (setT v s).sel = s.sel := rfl
@[simp] theorem setT_responses (v : Wide) (s : State) : (setT v s).responses = s.responses := rfl
@[simp] theorem setT_pending (v : Wide) (s : State) : (setT v s).pending = s.pending := rfl
@[simp] theorem setT_idx (v : Wide) (s : State) : (setT v s).idx = s.idx := rfl
@[simp] theorem setT_draws (v : Wide) (s : State) : (setT v s).draws = s.draws := rfl
@[simp] theorem setT_xfers (v : Wide) (s : State) : (setT v s).xfers = s.xfers := rfl

/-! ### setF -/

@[simp] theorem setF_raw (v : Wide) (s : State) : (setF v s).raw = s.raw := rfl
@[simp] theorem setF_res (v : Wide) (s : State) : (setF v s).res = s.res := rfl
@[simp] theorem setF_temp (v : Wide) (s : State) : (setF v s).temp = s.temp := rfl
@[simp] theorem setF_fault (v : Wide) (s : State) : (setF v s).fault = s.fault := rfl
@[simp] theorem setF_br (v : Wide) (s : State) : (setF v s).br = s.br := rfl
@[simp] theorem setF_ill (v : Wide) (s : State) : (setF v s).ill = s.ill := rfl
@[simp] theorem setF_t (v : Wide) (s : State) : (setF v s).t = s.t := rfl
@[simp] theorem setF_f (v : Wide) (s : State) : (setF v s).f = v := rfl
@[simp] theorem setF_d (v : Wide) (s : State) : (setF v s).d = s.d := rfl
@[simp] theorem setF_it (v : Wide) (s : State) : (setF v s).it = s.it := rfl
@[simp] theorem setF_trace (v : Wide) (s : State) : (setF v s).trace = s.trace := rfl
@[simp] theorem setF_sel (v : Wide) (s : State) : (setF v s).sel = s.sel := rfl
@[simp] theorem setF_responses (v : Wide) (s : State) : (setF v s).responses = s.responses := rfl
@[simp] theorem setF_pending (v : Wide) (s : State) : (setF v s).pending = s.pending := rfl
@[simp] theorem setF_idx (v : Wide) (s : State) : (setF v s).idx = s.idx := rfl
@[simp] theorem setF_draws (v : Wide) (s : State) : (setF v s).draws = s.draws := rfl
@[simp] theorem setF_xfers (v : Wide) (s : State) : (setF v s).xfers = s.xfers := rfl

/-! ### setD -/

@[simp] theorem setD_raw (v : Wide) (s : State) : (setD v s).raw = s.raw := rfl
@[simp] theorem setD_res (v : Wide) (s : State) : (setD v s).res = s.res := rfl
@[simp] theorem setD_temp (v : Wide) (s : State) : (setD v s).temp = s.temp := rfl
@[simp] theorem setD_fault (v : Wide) (s : State) : (setD v s).fault = s.fault := rfl
@[simp] theorem setD_br (v : Wide) (s : State) : (setD v s).br = s.br := rfl
@[simp] theorem setD_ill (v : Wide) (s : State) : (setD v s).ill = s.ill := rfl
@[simp] theorem setD_t (v : Wide) (s : State) : (setD v s).t = s.t := rfl
@[simp] theorem setD_f (v : Wide) (s : State) : (setD v s).f = s.f := rfl
@[simp] theorem setD_d (v : Wide) (s : State) : (setD v s).d = v := rfl
@[simp] theorem setD_it (v : Wide) (s : State) : (setD v s).it = s.it := rfl
@[simp] theorem setD_trace (v : Wide) (s : State) : (setD v s).trace = s.trace := rfl
@[simp] theorem setD_sel (v : Wide) (s : State) : (setD v s).sel = s.sel := rfl
@[simp] theorem setD_responses (v : Wide) (s : State) : (setD v s).responses = s.responses := rfl
@[simp] theorem setD_pending (v : Wide) (s : State) : (setD v s).pending = s.pending := rfl
@[simp] theorem setD_idx (v : Wide) (s : State) : (setD v s).idx = s.idx := rfl
@[simp] theorem setD_draws (v : Wide) (s : State) : (setD v s).draws = s.draws := rfl
@[simp] theorem setD_xfers (v : Wide) (s : State) : (setD v s).xfers = s.xfers := rfl

/-! ### setIt -/

@[simp] theorem setIt_raw (v : BitVec 3) (s : State) : (setIt v s).raw = s.raw := rfl
@[simp] theorem setIt_res (v : BitVec 3) (s : State) : (setIt v s).res = s.res := rfl
@[simp] theorem setIt_temp (v : BitVec 3) (s : State) : (setIt v s).temp = s.temp := rfl
@[simp] theorem setIt_fault (v : BitVec 3) (s : State) : (setIt v s).fault = s.fault := rfl
@[simp] theorem setIt_br (v : BitVec 3) (s : State) : (setIt v s).br = s.br := rfl
@[simp] theorem setIt_ill (v : BitVec 3) (s : State) : (setIt v s).ill = s.ill := rfl
@[simp] theorem setIt_t (v : BitVec 3) (s : State) : (setIt v s).t = s.t := rfl
@[simp] theorem setIt_f (v : BitVec 3) (s : State) : (setIt v s).f = s.f := rfl
@[simp] theorem setIt_d (v : BitVec 3) (s : State) : (setIt v s).d = s.d := rfl
@[simp] theorem setIt_it (v : BitVec 3) (s : State) : (setIt v s).it = v := rfl
@[simp] theorem setIt_trace (v : BitVec 3) (s : State) : (setIt v s).trace = s.trace := rfl
@[simp] theorem setIt_sel (v : BitVec 3) (s : State) : (setIt v s).sel = s.sel := rfl
@[simp] theorem setIt_responses (v : BitVec 3) (s : State) : (setIt v s).responses = s.responses := rfl
@[simp] theorem setIt_pending (v : BitVec 3) (s : State) : (setIt v s).pending = s.pending := rfl
@[simp] theorem setIt_idx (v : BitVec 3) (s : State) : (setIt v s).idx = s.idx := rfl
@[simp] theorem setIt_draws (v : BitVec 3) (s : State) : (setIt v s).draws = s.draws := rfl
@[simp] theorem setIt_xfers (v : BitVec 3) (s : State) : (setIt v s).xfers = s.xfers := rfl

/-! ### emit -/

@[simp] theorem emit_raw (v : Event) (s : State) : (emit v s).raw = s.raw := rfl
@[simp] theorem emit_res (v : Event) (s : State) : (emit v s).res = s.res := rfl
@[simp] theorem emit_temp (v : Event) (s : State) : (emit v s).temp = s.temp := rfl
@[simp] theorem emit_fault (v : Event) (s : State) : (emit v s).fault = s.fault := rfl
@[simp] theorem emit_br (v : Event) (s : State) : (emit v s).br = s.br := rfl
@[simp] theorem emit_ill (v : Event) (s : State) : (emit v s).ill = s.ill := rfl
@[simp] theorem emit_t (v : Event) (s : State) : (emit v s).t = s.t := rfl
@[simp] theorem emit_f (v : Event) (s : State) : (emit v s).f = s.f := rfl
@[simp] theorem emit_d (v : Event) (s : State) : (emit v s).d = s.d := rfl
@[simp] theorem emit_it (v : Event) (s : State) : (emit v s).it = s.it := rfl
@[simp] theorem emit_trace (v : Event) (s : State) : (emit v s).trace = s.trace ++ [v] := rfl
@[simp] theorem emit_sel (v : Event) (s : State) : (emit v s).sel = s.sel := rfl
@[simp] theorem emit_responses (v : Event) (s : State) : (emit v s).responses = s.responses := rfl
@[simp] theorem emit_pending (v : Event) (s : State) : (emit v s).pending = s.pending := rfl
@[simp] theorem emit_idx (v : Event) (s : State) : (emit v s).idx = s.idx := rfl
@[simp] theorem emit_draws (v : Event) (s : State) : (emit v s).draws = s.draws := rfl
@[simp] theorem emit_xfers (v : Event) (s : State) : (emit v s).xfers = s.xfers := rfl

/-! ### setSel -/

@[simp] theorem setSel_raw (v : Bool) (s : State) : (setSel v s).raw = s.raw := rfl
@[simp] theorem setSel_res (v : Bool) (s : State) : (setSel v s).res = s.res := rfl
@[simp] theorem setSel_temp (v : Bool) (s : State) : (setSel v s).temp = s.temp := rfl
@[simp] theorem setSel_fault (v : Bool) (s : State) : (setSel v s).fault = s.fault := rfl
@[simp] theorem setSel_br (v : Bool) (s : State) : (setSel v s).br = s.br := rfl
@[simp] theorem setSel_ill (v : Bool) (s : State) : (setSel v s).ill = s.ill := rfl
@[simp] theorem setSel_t (v : Bool) (s : State) : (setSel v s).t = s.t := rfl
@[simp] theorem setSel_f (v : Bool) (s : State) : (setSel v s).f = s.f := rfl
@[simp] theorem setSel_d (v : Bool) (s : State) : (setSel v s).d = s.d := rfl
@[simp] theorem setSel_it (v : Bool) (s : State) : (setSel v s).it = s.it := rfl
@[simp] theorem setSel_trace (v : Bool) (s : State) : (setSel v s).trace = s.trace := rfl
@[simp] theorem setSel_sel (v : Bool) (s : State) : (setSel v s).sel = v := rfl
@[simp] theorem setSel_responses (v : Bool) (s : State) : (setSel v s).responses = s.responses := rfl
@[simp] theorem setSel_pending (v : Bool) (s : State) : (setSel v s).pending = s.pending := rfl
@[simp] theorem setSel_idx (v : Bool) (s : State) : (setSel v s).idx = s.idx := rfl
@[simp] theorem setSel_draws (v : Bool) (s : State) : (setSel v s).draws = s.draws := rfl
@[simp] theorem setSel_xfers (v : Bool) (s : State) : (setSel v s).xfers = s.xfers := rfl

/-! ### respond -/

@[simp] theorem respond_raw (v : Response) (s : State) : (respond v s).raw = s.raw := rfl
@[simp] theorem respond_res (v : Response) (s : State) : (respond v s).res = s.res := rfl
@[simp] theorem respond_temp (v : Response) (s : State) : (respond v s).temp = s.temp := rfl
@[simp] theorem respond_fault (v : Response) (s : State) : (respond v s).fault = s.fault := rfl
@[simp] theorem respond_br (v : Response) (s : State) : (respond v s).br = s.br := rfl
@[simp] theorem respond_ill (v : Response) (s : State) : (respond v s).ill = s.ill := rfl
@[simp] theorem respond_t (v : Response) (s : State) : (respond v s).t = s.t := rfl
@[simp] theorem respond_f (v : Response) (s : State) : (respond v s).f = s.f := rfl
@[simp] theorem respond_d (v : Response) (s : State) : (respond v s).d = s.d := rfl
@[simp] theorem respond_it (v : Response) (s : State) : (respond v s).it = s.it := rfl
@[simp] theorem respond_trace (v : Response) (s : State) : (respond v s).trace = s.trace := rfl
@[simp] theorem respond_sel (v : Response) (s : State) : (respond v s).sel = s.sel := rfl
@[simp] theorem respond_responses (v : Response) (s : State) : (respond v s).responses = s.responses ++ [v] := rfl
@[simp] theorem respond_pending (v : Response) (s : State) : (respond v s).pending = s.pending := rfl
@[simp] theorem respond_idx (v : Response) (s : State) : (respond v s).idx = s.idx := rfl
@[simp] theorem respond_draws (v : Response) (s : State) : (respond v s).draws = s.draws := rfl
@[simp] theorem respond_xfers (v : Response) (s : State) : (respond v s).xfers = s.xfers := rfl

/-! ### takeDraw -/

@[simp] theorem takeDraw_raw (s : State) : (takeDraw s).raw = s.raw := rfl
@[simp] theorem takeDraw_res (s : State) : (takeDraw s).res = s.res := rfl
@[simp] theorem takeDraw_temp (s : State) : (takeDraw s).temp = s.temp := rfl
@[simp] theorem takeDraw_fault (s : State) : (takeDraw s).fault = s.fault := rfl
@[simp] theorem takeDraw_br (s : State) : (takeDraw s).br = s.br := rfl
@[simp] theorem takeDraw_ill (s : State) : (takeDraw s).ill = s.ill := rfl
@[simp] theorem takeDraw_t (s : State) : (takeDraw s).t = s.t := rfl
@[simp] theorem takeDraw_f (s : State) : (takeDraw s).f = s.f := rfl
@[simp] theorem takeDraw_d (s : State) : (takeDraw s).d = s.d := rfl
@[simp] theorem takeDraw_it (s : State) : (takeDraw s).it = s.it := rfl
@[simp] theorem takeDraw_trace (s : State) : (takeDraw s).trace = s.trace := rfl
@[simp] theorem takeDraw_sel (s : State) : (takeDraw s).sel = s.sel := rfl
@[simp] theorem takeDraw_responses (s : State) : (takeDraw s).responses = s.responses := rfl
@[simp] theorem takeDraw_pending (s : State) : (takeDraw s).pending = s.pending := rfl
@[simp] theorem takeDraw_idx (s : State) : (takeDraw s).idx = s.idx := rfl
@[simp] theorem takeDraw_draws (s : State) : (takeDraw s).draws = s.draws.drop 1 := rfl
@[simp] theorem takeDraw_xfers (s : State) : (takeDraw s).xfers = s.xfers + 1 := rfl

/-! ### dropAction -/

@[simp] theorem dropAction_raw (s : State) : (dropAction s).raw = s.raw := rfl
@[simp] theorem dropAction_res (s : State) : (dropAction s).res = s.res := rfl
@[simp] theorem dropAction_temp (s : State) : (dropAction s).temp = s.temp := rfl
@[simp] theorem dropAction_fault (s : State) : (dropAction s).fault = s.fault := rfl
@[simp] theorem dropAction_br (s : State) : (dropAction s).br = s.br := rfl
@[simp] theorem dropAction_ill (s : State) : (dropAction s).ill = s.ill := rfl
@[simp] theorem dropAction_t (s : State) : (dropAction s).t = s.t := rfl
@[simp] theorem dropAction_f (s : State) : (dropAction s).f = s.f := rfl
@[simp] theorem dropAction_d (s : State) : (dropAction s).d = s.d := rfl
@[simp] theorem dropAction_it (s : State) : (dropAction s).it = s.it := rfl
@[simp] theorem dropAction_trace (s : State) : (dropAction s).trace = s.trace := rfl
@[simp] theorem dropAction_sel (s : State) : (dropAction s).sel = s.sel := rfl
@[simp] theorem dropAction_responses (s : State) : (dropAction s).responses = s.responses := rfl
@[simp] theorem dropAction_pending (s : State) : (dropAction s).pending = s.pending.drop 1 := rfl
@[simp] theorem dropAction_idx (s : State) : (dropAction s).idx = s.idx := rfl
@[simp] theorem dropAction_draws (s : State) : (dropAction s).draws = s.draws := rfl
@[simp] theorem dropAction_xfers (s : State) : (dropAction s).xfers = s.xfers := rfl

/-! ### advanceIdx -/

@[simp] theorem advanceIdx_raw (s : State) : (advanceIdx s).raw = s.raw := rfl
@[simp] theorem advanceIdx_res (s : State) : (advanceIdx s).res = s.res := rfl
@[simp] theorem advanceIdx_temp (s : State) : (advanceIdx s).temp = s.temp := rfl
@[simp] theorem advanceIdx_fault (s : State) : (advanceIdx s).fault = s.fault := rfl
@[simp] theorem advanceIdx_br (s : State) : (advanceIdx s).br = s.br := rfl
@[simp] theorem advanceIdx_ill (s : State) : (advanceIdx s).ill = s.ill := rfl
@[simp] theorem advanceIdx_t (s : State) : (advanceIdx s).t = s.t := rfl
@[simp] theorem advanceIdx_f (s : State) : (advanceIdx s).f = s.f := rfl
@[simp] theorem advanceIdx_d (s : State) : (advanceIdx s).d = s.d := rfl
@[simp] theorem advanceIdx_it (s : State) : (advanceIdx s).it = s.it := rfl
@[simp] theorem advanceIdx_trace (s : State) : (advanceIdx s).trace = s.trace := rfl
@[simp] theorem advanceIdx_sel (s : State) : (advanceIdx s).sel = s.sel := rfl
@[simp] theorem advanceIdx_responses (s : State) : (advanceIdx s).responses = s.responses := rfl
@[simp] theorem advanceIdx_pending (s : State) : (advanceIdx s).pending = s.pending := rfl
@[simp] theorem advanceIdx_idx (s : State) : (advanceIdx s).idx = s.idx + 1 := rfl
@[simp] theorem advanceIdx_draws (s : State) : (advanceIdx s).draws = s.draws := rfl
@[simp] theorem advanceIdx_xfers (s : State) : (advanceIdx s).xfers = s.xfers := rfl

/-! ### clearRegisters -/

@[simp] theorem clearRegisters_raw (s : State) : (clearRegisters s).raw = 0 := rfl
@[simp] theorem clearRegisters_res (s : State) : (clearRegisters s).res = 0 := rfl
@[simp] theorem clearRegisters_temp (s : State) : (clearRegisters s).temp = 0 := rfl
@[simp] theorem clearRegisters_fault (s : State) : (clearRegisters s).fault = false := rfl
@[simp] theorem clearRegisters_br (s : State) : (clearRegisters s).br = false := rfl
@[simp] theorem clearRegisters_ill (s : State) : (clearRegisters s).ill = false := rfl
@[simp] theorem clearRegisters_t (s : State) : (clearRegisters s).t = 0 := rfl
@[simp] theorem clearRegisters_f (s : State) : (clearRegisters s).f = 0 := rfl
@[simp] theorem clearRegisters_d (s : State) : (clearRegisters s).d = 0 := rfl
@[simp] theorem clearRegisters_it (s : State) : (clearRegisters s).it = 0 := rfl
@[simp] theorem clearRegisters_trace (s : State) : (clearRegisters s).trace = s.trace := rfl
@[simp] theorem clearRegisters_sel (s : State) : (clearRegisters s).sel = false := rfl
@[simp] theorem clearRegisters_responses (s : State) : (clearRegisters s).responses = s.responses := rfl
@[simp] theorem clearRegisters_pending (s : State) : (clearRegisters s).pending = s.pending := rfl
@[simp] theorem clearRegisters_idx (s : State) : (clearRegisters s).idx = s.idx := rfl
@[simp] theorem clearRegisters_draws (s : State) : (clearRegisters s).draws = s.draws := rfl
@[simp] theorem clearRegisters_xfers (s : State) : (clearRegisters s).xfers = s.xfers := rfl

/-! ### resetByPin -/

@[simp] theorem resetByPin_raw (s : State) : (resetByPin s).raw = 0 := rfl
@[simp] theorem resetByPin_res (s : State) : (resetByPin s).res = 0 := rfl
@[simp] theorem resetByPin_temp (s : State) : (resetByPin s).temp = 0 := rfl
@[simp] theorem resetByPin_fault (s : State) : (resetByPin s).fault = false := rfl
@[simp] theorem resetByPin_br (s : State) : (resetByPin s).br = false := rfl
@[simp] theorem resetByPin_ill (s : State) : (resetByPin s).ill = false := rfl
@[simp] theorem resetByPin_t (s : State) : (resetByPin s).t = 0 := rfl
@[simp] theorem resetByPin_f (s : State) : (resetByPin s).f = 0 := rfl
@[simp] theorem resetByPin_d (s : State) : (resetByPin s).d = 0 := rfl
@[simp] theorem resetByPin_it (s : State) : (resetByPin s).it = 0 := rfl
@[simp] theorem resetByPin_trace (s : State) : (resetByPin s).trace = [] := rfl
@[simp] theorem resetByPin_sel (s : State) : (resetByPin s).sel = false := rfl
@[simp] theorem resetByPin_responses (s : State) : (resetByPin s).responses = s.responses := rfl
@[simp] theorem resetByPin_pending (s : State) : (resetByPin s).pending = s.pending := rfl
@[simp] theorem resetByPin_idx (s : State) : (resetByPin s).idx = s.idx := rfl
@[simp] theorem resetByPin_draws (s : State) : (resetByPin s).draws = s.draws := rfl
@[simp] theorem resetByPin_xfers (s : State) : (resetByPin s).xfers = s.xfers := rfl

/-! ### acceptCommand -/

@[simp] theorem acceptCommand_raw (s : State) : (acceptCommand s).raw = s.raw := rfl
@[simp] theorem acceptCommand_res (s : State) : (acceptCommand s).res = s.res := rfl
@[simp] theorem acceptCommand_temp (s : State) : (acceptCommand s).temp = s.temp := rfl
@[simp] theorem acceptCommand_fault (s : State) : (acceptCommand s).fault = s.fault := rfl
@[simp] theorem acceptCommand_br (s : State) : (acceptCommand s).br = s.br := rfl
@[simp] theorem acceptCommand_ill (s : State) : (acceptCommand s).ill = s.ill := rfl
@[simp] theorem acceptCommand_t (s : State) : (acceptCommand s).t = s.t := rfl
@[simp] theorem acceptCommand_f (s : State) : (acceptCommand s).f = s.f := rfl
@[simp] theorem acceptCommand_d (s : State) : (acceptCommand s).d = s.d := rfl
@[simp] theorem acceptCommand_it (s : State) : (acceptCommand s).it = s.it := rfl
@[simp] theorem acceptCommand_trace (s : State) : (acceptCommand s).trace = s.trace := rfl
@[simp] theorem acceptCommand_sel (s : State) : (acceptCommand s).sel = s.sel := rfl
@[simp] theorem acceptCommand_responses (s : State) : (acceptCommand s).responses = s.responses := rfl
@[simp] theorem acceptCommand_pending (s : State) : (acceptCommand s).pending = s.pending.drop 1 := rfl
@[simp] theorem acceptCommand_idx (s : State) : (acceptCommand s).idx = s.idx + 1 := rfl
@[simp] theorem acceptCommand_draws (s : State) : (acceptCommand s).draws = s.draws := rfl
@[simp] theorem acceptCommand_xfers (s : State) : (acceptCommand s).xfers = s.xfers := rfl

/-! ### presentCommand -/

@[simp] theorem presentCommand_raw (w : CmdWord) (s : State) : (presentCommand w s).raw = s.raw := rfl
@[simp] theorem presentCommand_res (w : CmdWord) (s : State) : (presentCommand w s).res = s.res := rfl
@[simp] theorem presentCommand_temp (w : CmdWord) (s : State) : (presentCommand w s).temp = s.temp := rfl
@[simp] theorem presentCommand_fault (w : CmdWord) (s : State) : (presentCommand w s).fault = s.fault := rfl
@[simp] theorem presentCommand_br (w : CmdWord) (s : State) : (presentCommand w s).br = s.br := rfl
@[simp] theorem presentCommand_ill (w : CmdWord) (s : State) : (presentCommand w s).ill = s.ill := rfl
@[simp] theorem presentCommand_t (w : CmdWord) (s : State) : (presentCommand w s).t = s.t := rfl
@[simp] theorem presentCommand_f (w : CmdWord) (s : State) : (presentCommand w s).f = s.f := rfl
@[simp] theorem presentCommand_d (w : CmdWord) (s : State) : (presentCommand w s).d = s.d := rfl
@[simp] theorem presentCommand_it (w : CmdWord) (s : State) : (presentCommand w s).it = s.it := rfl
@[simp] theorem presentCommand_trace (w : CmdWord) (s : State) : (presentCommand w s).trace = s.trace := rfl
@[simp] theorem presentCommand_sel (w : CmdWord) (s : State) : (presentCommand w s).sel = s.sel := rfl
@[simp] theorem presentCommand_responses (w : CmdWord) (s : State) : (presentCommand w s).responses = s.responses := rfl
@[simp] theorem presentCommand_pending (w : CmdWord) (s : State) : (presentCommand w s).pending = .command w :: s.pending := rfl
@[simp] theorem presentCommand_idx (w : CmdWord) (s : State) : (presentCommand w s).idx = s.idx := rfl
@[simp] theorem presentCommand_draws (w : CmdWord) (s : State) : (presentCommand w s).draws = s.draws := rfl
@[simp] theorem presentCommand_xfers (w : CmdWord) (s : State) : (presentCommand w s).xfers = s.xfers := rfl

end Sys2Proof.Machine
end

