-- ==== Sys2Proof/Laws/Ops.lean ====
section
/-!
SUPPORT. For each shared operation, one lemma that says all it does, and its projections on the fields it leaves.
-/
namespace Sys2Proof.Machine

/-! ### Draws -/

@[simp] theorem drawAt_emit (e : Event) (s : State) (k : Nat) : drawAt (emit e s) k = drawAt s k := rfl

@[simp] theorem drawAt_setSel (v : Bool) (s : State) (k : Nat) : drawAt (setSel v s) k = drawAt s k := rfl

/-- After an exchange the environment's next byte is the one after (20_memory R53). -/
@[simp] theorem drawAt_takeDraw (s : State) (k : Nat) : drawAt (takeDraw s) k = drawAt s (k + 1) := by
  have h : s.xfers + 1 + k = s.xfers + (k + 1) := by omega
  simp only [drawAt, takeDraw, h, List.getD_eq_getElem?_getD, List.getElem?_drop, Nat.add_comm 1 k]

/-! ### The sequences -/

/-- The configuration write: four events, two exchanges, the select released, nothing else (20_memory R55). -/
theorem cfgWrite_spec (c : Config.Cfg) (s : State) :
    cfgWrite c s =
      { s with
        trace := s.trace ++ [.sel, .xfer c.CFG_WR_OP (drawAt s 0), .xfer c.CFG_BYTE (drawAt s 1), .desel]
        sel := false
        draws := s.draws.drop 2
        xfers := s.xfers + 2 } := by
  have h : drawAt (exchange c.CFG_WR_OP (selectDevice s)) 0 = drawAt s 1 := by
    simp [exchange, selectDevice]
  rw [cfgWrite, exchange, h]
  simp [deselectDevice, exchange, selectDevice, takeDraw, emit, setSel, drawAt]

/-- The RTD read: five events, three exchanges, the select released, nothing else (20_memory R56). -/
theorem rtdRead_spec (c : Config.Cfg) (s : State) :
    rtdRead c s =
      { s with
        trace := s.trace ++ [.sel, .xfer c.RTD_RD_OP (drawAt s 0), .xfer c.DUMMY (rtdMsb s), .xfer c.DUMMY (rtdLsb s), .desel]
        sel := false
        draws := s.draws.drop 3
        xfers := s.xfers + 3 } := by
  have h1 : drawAt (exchange c.RTD_RD_OP (selectDevice s)) 0 = drawAt s 1 := by
    simp [exchange, selectDevice]
  have h2 : drawAt (exchange c.DUMMY (exchange c.RTD_RD_OP (selectDevice s))) 0 = drawAt s 2 := by
    simp [exchange, selectDevice]
  rw [rtdRead, exchange, h2, exchange, h1]
  simp [deselectDevice, exchange, selectDevice, takeDraw, emit, setSel, drawAt, rtdMsb, rtdLsb, List.drop_drop]

/-- The environment's bytes after an RTD read (20_memory R53). -/
@[simp] theorem drawAt_rtdRead (c : Config.Cfg) (s : State) (k : Nat) : drawAt (rtdRead c s) k = drawAt s (k + 3) := by
  have h : s.xfers + 3 + k = s.xfers + (k + 3) := by omega
  rw [rtdRead_spec]
  simp only [drawAt, h, List.getD_eq_getElem?_getD, List.getElem?_drop, Nat.add_comm 3 k]

/-! ### The Interpreter -/

/-- The registers an interpretation writes, without the clear sequence (40_decoder R91). -/
theorem interpret_of_no_fault (c : Config.Cfg) (msb lsb : Byte) (s : State)
    (h : faultOf (deviceWord msb lsb) = false) :
    interpret c msb lsb s = { s with raw := rawOf (deviceWord msb lsb), fault := false } := by
  simp [interpret, h, setFault, setRaw]

/-- On a fault: the registers first, then the configuration write (40_decoder R91, 60_exceptions R198). -/
theorem interpret_of_fault (c : Config.Cfg) (msb lsb : Byte) (s : State)
    (h : faultOf (deviceWord msb lsb) = true) :
    interpret c msb lsb s =
      { s with
        raw := rawOf (deviceWord msb lsb)
        fault := true
        trace := s.trace ++ [.sel, .xfer c.CFG_WR_OP (drawAt s 0), .xfer c.CFG_BYTE (drawAt s 1), .desel]
        sel := false
        draws := s.draws.drop 2
        xfers := s.xfers + 2 } := by
  have e (k : Nat) : drawAt (setFault true (setRaw (rawOf (deviceWord msb lsb)) s)) k = drawAt s k := rfl
  simp only [interpret, h, if_true, clearDeviceFault, cfgWrite_spec, e]
  rfl

/-- The fault bit of a device word is bit 0 of its second byte (40_decoder R90). -/
@[simp] theorem faultOf_deviceWord (msb lsb : Byte) : faultOf (deviceWord msb lsb) = lsb.getLsbD 0 := by
  have h : (deviceWord msb lsb).getLsbD 0 = if 0 < 8 then lsb.getLsbD 0 else msb.getLsbD (0 - 8) :=
    BitVec.getLsbD_append
  simpa [faultOf] using h

/-- An interpretation, field by field (40_decoder R91). -/
theorem interpret_spec (c : Config.Cfg) (msb lsb : Byte) (s : State) :
    interpret c msb lsb s =
      { s with
        raw := rawOf (deviceWord msb lsb)
        fault := lsb.getLsbD 0
        trace := s.trace ++
          if lsb.getLsbD 0 then [.sel, .xfer c.CFG_WR_OP (drawAt s 0), .xfer c.CFG_BYTE (drawAt s 1), .desel] else []
        sel := if lsb.getLsbD 0 then false else s.sel
        draws := s.draws.drop (if lsb.getLsbD 0 then 2 else 0)
        xfers := s.xfers + if lsb.getLsbD 0 then 2 else 0 } := by
  cases h : lsb.getLsbD 0
  · rw [interpret_of_no_fault c msb lsb s (by rw [faultOf_deviceWord, h])]; simp
  · rw [interpret_of_fault c msb lsb s (by rw [faultOf_deviceWord, h])]; simp

/-- A read and its interpretation, field by field (40_decoder R94). -/
theorem readAndInterpret_spec (c : Config.Cfg) (s : State) :
    readAndInterpret c s =
      { s with
        raw := rawOf (deviceWord (rtdMsb s) (rtdLsb s))
        fault := (rtdLsb s).getLsbD 0
        trace := s.trace ++
          ([.sel, .xfer c.RTD_RD_OP (drawAt s 0), .xfer c.DUMMY (rtdMsb s), .xfer c.DUMMY (rtdLsb s), .desel] ++
            if (rtdLsb s).getLsbD 0 then [.sel, .xfer c.CFG_WR_OP (drawAt s 3), .xfer c.CFG_BYTE (drawAt s 4), .desel]
            else [])
        sel := false
        draws := s.draws.drop (if (rtdLsb s).getLsbD 0 then 5 else 3)
        xfers := s.xfers + if (rtdLsb s).getLsbD 0 then 5 else 3 } := by
  rw [readAndInterpret, interpret_spec, drawAt_rtdRead, drawAt_rtdRead, rtdRead_spec]
  cases (rtdLsb s).getLsbD 0 <;> simp

/-! ### The Engine -/

/-- The iteration's two arms and its bound (43_rootfinder R157). -/
theorem iterate_of_bound (c : Config.Cfg) (s : State) (h : iterBound s.br ≤ s.it.toNat) : iterate c s = s := by
  simp [iterate, h]

theorem iterate_below_bound (c : Config.Cfg) (s : State) (h : s.it.toNat < iterBound s.br) :
    iterate c s = updateEstimate (evaluate c s) := by
  simp [iterate, Nat.not_le.mpr h]

/-- An iteration below its bound, field by field (43_rootfinder R157). -/
theorem iterate_spec (c : Config.Cfg) (s : State) (h : s.it.toNat < iterBound s.br) :
    iterate c s =
      { s with
        f := toWide (residualAt c s.br s.t.toInt s.res.toInt)
        d := toWide (derivativeAt c s.br s.t.toInt)
        t := nextEstimate (evaluate c s)
        it := nextCount (evaluate c s) } := by
  rw [iterate_below_bound c s h]
  rfl

/-- An iteration changes `F`, `D`, `T` and `IT` at most (10_state R33). -/
theorem iterate_frame (c : Config.Cfg) (s : State) :
    iterate c s =
      { s with t := (iterate c s).t, f := (iterate c s).f, d := (iterate c s).d, it := (iterate c s).it } := by
  unfold iterate
  split_ifs <;> rfl

/-- The new estimate of a pass, as an integer: kept on a zero derivative, else one step (43_rootfinder R155, R156). -/
theorem toInt_nextEstimate (c : Config.Cfg) (s : State) :
    (nextEstimate (evaluate c s)).toInt =
      if derivativeAt c s.br s.t.toInt = 0 then s.t.toInt
      else stepEstimate s.br s.t.toInt (residualAt c s.br s.t.toInt s.res.toInt) (derivativeAt c s.br s.t.toInt) := by
  have hd : (evaluate c s).d = 0#64 ↔ derivativeAt c s.br s.t.toInt = 0 := by
    simp [evaluate, toWide_eq_zero_iff]
  unfold nextEstimate
  by_cases h : derivativeAt c s.br s.t.toInt = 0
  · rw [if_pos (hd.mpr h), if_pos h]; rfl
  · rw [if_neg (fun e => h (hd.mp e)), if_neg h]; simp [evaluate]

theorem iterateWhile_frame (c : Config.Cfg) (n : Nat) (s : State) :
    iterateWhile c n s =
      { s with t := (iterateWhile c n s).t, f := (iterateWhile c n s).f, d := (iterateWhile c n s).d,
               it := (iterateWhile c n s).it } := by
  induction n generalizing s with
  | zero => rfl
  | succ n ih =>
    unfold iterateWhile
    split_ifs with h
    · rw [ih (iterate c s), iterate_frame c s]
    · rfl

/-- A conversion changes `TEMP`, `BR` and the working registers at most (10_state R33, 44_converter R171). -/
theorem convertRes_frame (c : Config.Cfg) (s : State) :
    convertRes c s =
      { s with temp := (convertRes c s).temp, br := branchOf s.res.toInt, t := (convertRes c s).t,
               f := (convertRes c s).f, d := (convertRes c s).d, it := (convertRes c s).it } := by
  unfold convertRes clampToTemp
  rw [iterateWhile_frame c 4 (loadEstimate c (selectBranch s))]
  rfl

/-- What a conversion leaves in `TEMP` is its last estimate through the final clamp (44_converter R171). -/
theorem convertRes_temp (c : Config.Cfg) (s : State) :
    (convertRes c s).temp = toTemp (finalTemp (convertRes c s).t.toInt) := rfl

/-- A pass below the bound raises `IT` and keeps it at most the bound (43_rootfinder R157, R159). -/
theorem iterate_it (c : Config.Cfg) (s : State) (h : s.it.toNat < iterBound s.br) :
    s.it.toNat < (iterate c s).it.toNat ∧ (iterate c s).it.toNat ≤ iterBound s.br := by
  have hb := iterBound_le s.br
  have e : (s.it + 1).toNat = s.it.toNat + 1 := by
    have h1 : (1 : BitVec 3).toNat = 1 := rfl
    rw [BitVec.toNat_add, h1]
    omega
  have e4 : (BitVec.ofNat 3 Config.NPOS).toNat = 4 := rfl
  rw [iterate_spec c s h]
  simp only [nextCount]
  split_ifs with hd
  · have hbr : s.br = true := hd.2
    have hN : iterBound s.br = 4 := by rw [hbr]; rfl
    omega
  · have he : (evaluate c s).it = s.it := rfl
    rw [he, e]
    omega

/-! ### The loop of a conversion (44_converter R170, R171) -/

/-- A zero derivative leaves the estimate in every later pass (43_rootfinder R160). -/
theorem convertPasses_of_zero (c : Config.Cfg) (b : Bool) (r : Int) {t : Int} (hz : derivativeAt c b t = 0) (n : Nat) :
    convertPasses c b r n t = t := by
  induction n with
  | zero => rfl
  | succ n ih => simp [convertPasses, hz, ih]

theorem convertPasses_of_nonzero (c : Config.Cfg) (b : Bool) (r : Int) {t : Int} (hz : derivativeAt c b t ≠ 0)
    (n : Nat) :
    convertPasses c b r (n + 1) t =
      convertPasses c b r n (stepEstimate b t (residualAt c b t r) (derivativeAt c b t)) := by
  rw [convertPasses, if_neg hz]

@[simp] theorem iterate_br (c : Config.Cfg) (s : State) : (iterate c s).br = s.br := by rw [iterate_frame]

@[simp] theorem iterate_res (c : Config.Cfg) (s : State) : (iterate c s).res = s.res := by rw [iterate_frame]

/-- A pass with a derivative that is not zero counts one (43_rootfinder R157). -/
theorem iterate_it_of_nonzero (c : Config.Cfg) (s : State) (h : s.it.toNat < iterBound s.br)
    (hz : derivativeAt c s.br s.t.toInt ≠ 0) : (iterate c s).it.toNat = s.it.toNat + 1 := by
  have hb := iterBound_le s.br
  have hd : ¬ (evaluate c s).d = 0#64 := by simp [evaluate, toWide_eq_zero_iff, hz]
  have h1 : (1 : BitVec 3).toNat = 1 := rfl
  rw [iterate_spec c s h]
  simp only [nextCount, hd, false_and, if_false]
  rw [BitVec.toNat_add, h1]
  change (s.it.toNat + 1) % 8 = s.it.toNat + 1
  omega

/-- The loop does nothing once the bound is reached. -/
theorem iterateWhile_of_bound (c : Config.Cfg) (n : Nat) {s : State} (h : iterBound s.br ≤ s.it.toNat) :
    iterateWhile c n s = s := by
  cases n with
  | zero => rfl
  | succ n => rw [iterateWhile, if_neg (Nat.not_lt.mpr h)]

/-- Run with enough passes, the loop ends at its bound, with the estimate of all remaining passes and with the residual
and derivative at the estimate before the last of them (44_converter R171). -/
theorem iterateWhile_spec (c : Config.Cfg) (n : Nat) (s : State) (hb : s.it.toNat ≤ iterBound s.br)
    (hn : iterBound s.br - s.it.toNat ≤ n) :
    (iterateWhile c n s).it.toNat = iterBound s.br ∧
    (iterateWhile c n s).t.toInt =
      convertPasses c s.br s.res.toInt (iterBound s.br - s.it.toNat) s.t.toInt ∧
    ∀ m, iterBound s.br - s.it.toNat = m + 1 →
      (iterateWhile c n s).f =
        toWide (residualAt c s.br (convertPasses c s.br s.res.toInt m s.t.toInt) s.res.toInt) ∧
      (iterateWhile c n s).d = toWide (derivativeAt c s.br (convertPasses c s.br s.res.toInt m s.t.toInt)) := by
  induction n generalizing s with
  | zero =>
    have h0 : iterBound s.br - s.it.toNat = 0 := by omega
    rw [h0]
    exact ⟨by simp only [iterateWhile]; omega, rfl, fun m hm => by omega⟩
  | succ n ih =>
    by_cases h : s.it.toNat < iterBound s.br
    · have hs := iterate_spec c s h
      have hf : (iterate c s).f = toWide (residualAt c s.br s.t.toInt s.res.toInt) := by rw [hs]
      have hd : (iterate c s).d = toWide (derivativeAt c s.br s.t.toInt) := by rw [hs]
      have ht := toInt_nextEstimate c s
      rw [← show (iterate c s).t = nextEstimate (evaluate c s) by rw [hs]] at ht
      have hi := iterate_it c s h
      obtain ⟨eIt, eT, eFD⟩ := ih (iterate c s) (by rw [iterate_br]; exact hi.2) (by rw [iterate_br]; omega)
      rw [iterate_br] at eIt eT eFD
      rw [iterate_res] at eT eFD
      rw [iterateWhile, if_pos h]
      by_cases hz : derivativeAt c s.br s.t.toInt = 0
      · rw [if_pos hz] at ht
        simp only [ht, convertPasses_of_zero c _ _ hz] at eT eFD ⊢
        refine ⟨eIt, eT, fun m _ => ?_⟩
        by_cases hend : iterBound s.br ≤ (iterate c s).it.toNat
        · rw [iterateWhile_of_bound c n (by rw [iterate_br]; exact hend), hf, hd]
          exact ⟨rfl, rfl⟩
        · exact eFD (iterBound s.br - (iterate c s).it.toNat - 1) (by omega)
      · rw [if_neg hz] at ht
        have hit := iterate_it_of_nonzero c s h hz
        have hm : iterBound s.br - s.it.toNat = (iterBound s.br - (iterate c s).it.toNat) + 1 := by omega
        rw [ht] at eT eFD
        rw [hm, convertPasses_of_nonzero c _ _ hz]
        refine ⟨eIt, eT, fun m hm' => ?_⟩
        cases m with
        | zero =>
          rw [iterateWhile_of_bound c n (by rw [iterate_br]; omega), hf, hd]
          exact ⟨rfl, rfl⟩
        | succ m =>
          rw [convertPasses_of_nonzero c _ _ hz]
          exact eFD m (by omega)
    · have h0 : iterBound s.br - s.it.toNat = 0 := by omega
      rw [iterateWhile_of_bound c _ (by omega), h0]
      exact ⟨by omega, rfl, fun m hm => by omega⟩

end Sys2Proof.Machine
end

