-- ==== Sys2Proof/Laws/PerInstr.lean ====
section
/-!
SUPPORT. Facts about each command as syntax. Family `RowMatch`: the word of a well-formed command matches the row of
the opcode map that stands for it (30_encoding R73).
-/
namespace Sys2Proof.Laws.RowMatch

/-- The word of `i` matches the row of `i`. -/
def Statement (i : Instr) : Prop := i.WellFormed = true → (rowOf i).Matches (encode i)

theorem nop : Statement .nop := fun _ => by unfold OpcodeRow.Matches; decide
theorem rst : Statement .rst := fun _ => by unfold OpcodeRow.Matches; decide
theorem init : Statement .init := fun _ => by unfold OpcodeRow.Matches; decide
theorem rdrtd : Statement .rdrtd := fun _ => by unfold OpcodeRow.Matches; decide

theorem dec (msb lsb : Byte) : Statement (.dec msb lsb) := fun _ => by
  apply BitVec.eq_of_getLsbD_eq
  intro k hk
  rw [BitVec.getLsbD_and, encode_getLsbD, operandOf_dec_getLsbD]
  interval_cases k <;> simp [rowOf, opcodeOf]

theorem scale : Statement .scale := fun _ => by unfold OpcodeRow.Matches; decide

theorem setr (imm : BitVec 24) : Statement (.setr imm) := fun _ => by
  apply BitVec.eq_of_getLsbD_eq
  intro k hk
  rw [BitVec.getLsbD_and, encode_getLsbD]
  interval_cases k <;> simp [rowOf, opcodeOf]

theorem sett (imm : BitVec 24) : Statement (.sett imm) := fun _ => by
  apply BitVec.eq_of_getLsbD_eq
  intro k hk
  rw [BitVec.getLsbD_and, encode_getLsbD]
  interval_cases k <;> simp [rowOf, opcodeOf]

theorem bsel : Statement .bsel := fun _ => by unfold OpcodeRow.Matches; decide
theorem est : Statement .est := fun _ => by unfold OpcodeRow.Matches; decide
theorem eval : Statement .eval := fun _ => by unfold OpcodeRow.Matches; decide
theorem nrit : Statement .nrit := fun _ => by unfold OpcodeRow.Matches; decide
theorem clmp : Statement .clmp := fun _ => by unfold OpcodeRow.Matches; decide
theorem cvt : Statement .cvt := fun _ => by unfold OpcodeRow.Matches; decide
theorem meas : Statement .meas := fun _ => by unfold OpcodeRow.Matches; decide

theorem rd (reg : BitVec 4) : Statement (.rd reg) := by
  unfold Statement OpcodeRow.Matches
  revert reg
  decide

end Sys2Proof.Laws.RowMatch
end

