-- ==== Sys2Proof/Laws/Step.lean ====
section
/-!
SUPPORT. What one step can do, said once.
-/
namespace Sys2Proof.Machine

/-- Taking an action, when it answers `t`, was idle, took the reset pin, ran a legal command, or met a reserved word
(20_memory R58, R65, 30_encoding R79, 70_reset_and_hazards R215). -/
theorem takeAction_cases {run : Instr → State → Result} {s t : State} (h : takeAction run s = .next t) :
    (s.pending = [] ∧ t = s) ∨
    (∃ rest, s.pending = .resetPin :: rest ∧ t = resetByPin (dropAction s)) ∨
    (∃ w rest i, s.pending = .command w :: rest ∧ decode w = .legal i ∧ run i (acceptCommand s) = .next t) ∨
    (∃ w rest why, s.pending = .command w :: rest ∧ decode w = .reserved why ∧
      t = raiseIllegalCommand (acceptCommand s)) := by
  unfold takeAction at h
  split at h
  · next hp =>
    injection h with h
    exact .inl ⟨hp, h.symm⟩
  · next rest hp =>
    injection h with h
    exact .inr (.inl ⟨rest, hp, h.symm⟩)
  · next w rest hp =>
    split at h
    · next i hd => exact .inr (.inr (.inl ⟨w, rest, i, hp, hd, h⟩))
    · next why hd =>
      injection h with h
      exact .inr (.inr (.inr ⟨w, rest, why, hp, hd, h.symm⟩))

/-- What one step can do. -/
theorem step_cases {s t : State} (h : step s = .next t) :
    (s.pending = [] ∧ t = s) ∨
    (∃ rest, s.pending = .resetPin :: rest ∧ t = resetByPin (dropAction s)) ∨
    (∃ w rest i, s.pending = .command w :: rest ∧ decode w = .legal i ∧ exec i (acceptCommand s) = .next t) ∨
    (∃ w rest why, s.pending = .command w :: rest ∧ decode w = .reserved why ∧
      t = raiseIllegalCommand (acceptCommand s)) :=
  takeAction_cases h

end Sys2Proof.Machine
end

