-- ==== Sys2Proof/Tests/Slice0.lean ====
section
/-!
SUPPORT. Tests of single decodings and steps, with expected values from spec/95_test_vectors.md, and for each statement
with hypotheses a named witness that meets them.
-/
namespace Sys2Proof.Tests
open Sys2Proof Sys2Proof.Machine

/-! ### Helpers -/

/-- The reset state with a resistance, a branch and an estimate. -/
def engine (br : Bool) (t r : Int) : State :=
  { State.reset with br := br, t := BitVec.ofInt 64 t, res := BitVec.ofInt 32 r }

/-- The reset state with the bytes the environment will return. -/
def drawing (bytes : List Byte) : State := { State.reset with draws := bytes }

/-- The reset state with the host's next command word. -/
def given (w : CmdWord) : State := presentCommand w State.reset

/-- `p` holds of the state a command leaves. -/
def leaves (i : Instr) (s : State) (p : State → Bool) : Bool :=
  match exec i s with
  | .next t => p t
  | .fault _ => false
  | .refused _ => false

/-! ### WellFormed: the one check, and an ill-formed term it refuses (30_encoding R77) -/

theorem test_wellFormed_refuses_register_8 : (Instr.rd 8#4).WellFormed = false := by decide
theorem test_wellFormed_refuses_register_15 : (Instr.rd 15#4).WellFormed = false := by decide
theorem test_wellFormed_accepts_register_7 : (Instr.rd 7#4).WellFormed = true := by decide

/-! ### Decoding: one word of each command, written bit by bit from 30_encoding R71 and R73 -/

theorem test_decode_nop : decode 0b00000000000000000000000000000000#32 = .legal .nop := by decide
theorem test_decode_rst : decode 0b00000001000000000000000000000000#32 = .legal .rst := by decide
theorem test_decode_init : decode 0b00000010000000000000000000000000#32 = .legal .init := by decide
theorem test_decode_rdrtd : decode 0b00000011000000000000000000000000#32 = .legal .rdrtd := by decide
theorem test_decode_dec : decode 0b00000100000000000101001001110101#32 = .legal (.dec 0x52#8 0x75#8) := by decide
theorem test_decode_scale : decode 0b00000101000000000000000000000000#32 = .legal .scale := by decide
theorem test_decode_setr : decode 0b00000110000000000011011000011010#32 = .legal (.setr 13850#24) := by decide
theorem test_decode_sett : decode 0b00000111111111111111011000000010#32 = .legal (.sett 0xFFF602#24) := by decide
theorem test_decode_bsel : decode 0b00001000000000000000000000000000#32 = .legal .bsel := by decide
theorem test_decode_est : decode 0b00001001000000000000000000000000#32 = .legal .est := by decide
theorem test_decode_eval : decode 0b00001010000000000000000000000000#32 = .legal .eval := by decide
theorem test_decode_nrit : decode 0b00001011000000000000000000000000#32 = .legal .nrit := by decide
theorem test_decode_clmp : decode 0b00001100000000000000000000000000#32 = .legal .clmp := by decide
theorem test_decode_cvt : decode 0b00001101000000000000000000000000#32 = .legal .cvt := by decide
theorem test_decode_meas : decode 0b00001110000000000000000000000000#32 = .legal .meas := by decide
theorem test_decode_rd : decode 0b00001111000000000000000000000110#32 = .legal (.rd 6#4) := by decide

/-- The reserved words of 95_test_vectors 2.6. -/
theorem test_decode_reserved :
    decode 0x10000000#32 = .reserved .opcode ∧ decode 0xFFFFFFFF#32 = .reserved .opcode ∧
    decode 0x0D000001#32 = .reserved .operandBits ∧ decode 0x00000001#32 = .reserved .operandBits ∧
    decode 0x04015275#32 = .reserved .operandBits ∧ decode 0x0F000008#32 = .reserved .registerIndex ∧
    decode 0x0F000013#32 = .reserved .operandBits ∧ decode 0x0E800000#32 = .reserved .operandBits := by decide

/-- The words printed for some commands in 95_test_vectors 2.2. -/
theorem test_encode_printed_words :
    encode (.setr 1852#24) = 0x0600073C#32 ∧ encode (.sett 8500#24) = 0x07002134#32 ∧
    encode (.dec 0xFF#8 0xFF#8) = 0x0400FFFF#32 ∧ encode (.rd 5#4) = 0x0F000005#32 ∧
    encode .meas = 0x0E000000#32 := by decide

theorem test_table_word : decodeTableWord 32 0x0F000007 = some (.rd 7#4) := by decide

/-! ### Single commands (95_test_vectors parts 2 and 3) -/

theorem test_rst_clears_ill : leaves .rst { State.reset with ill := true, temp := 999 } (fun t => !t.ill && t.temp == 0) := by
  decide
theorem test_init_trace : leaves .init (drawing [0x11, 0x22])
    (fun t => t.trace == [.sel, .xfer 0x80 0x11, .xfer 0xD0 0x22, .desel] && t.raw == 0) := by decide
theorem test_rdrtd_fault_trace : leaves .rdrtd (drawing [0xA5, 0x52, 0x75, 0x01, 0x02])
    (fun t => t.raw == 10554 && t.fault && t.trace ==
      [.sel, .xfer 0x01 0xA5, .xfer 0x00 0x52, .xfer 0x00 0x75, .desel,
       .sel, .xfer 0x80 0x01, .xfer 0xD0 0x02, .desel]) := by decide
theorem test_rdrtd_timeout_msb : leaves .rdrtd (drawing [0, 0, 1, 0, 0]) (fun t => t.raw == 0 && t.fault) := by decide
theorem test_dec_top_bit_is_data : leaves (.dec 0x80 0x00) State.reset
    (fun t => t.raw == 16384 && !t.fault && t.trace == []) := by decide
theorem test_dec_overwrites_fault : leaves (.dec 0x52 0x74) { State.reset with fault := true }
    (fun t => t.raw == 10554 && !t.fault && t.trace == []) := by decide
theorem test_scale_last_negative : leaves .scale { State.reset with raw := 7620 } (fun t => t.res.toInt == 9999) := by
  decide
theorem test_scale_largest : leaves .scale { State.reset with raw := 32767 } (fun t => t.res.toInt == 42998) := by
  decide
theorem test_setr_negative : leaves (.setr 0x800000) State.reset (fun t => t.res.toInt == -8388608) := by decide
theorem test_sett_negative : leaves (.sett 0xFFF602) State.reset (fun t => t.t.toInt == -2558) := by decide
theorem test_bsel_threshold : leaves .bsel (engine false 0 10000) (fun t => t.br) := by decide
theorem test_bsel_below : leaves .bsel (engine true 0 9999) (fun t => !t.br) := by decide
theorem test_est_clamped : leaves .est (engine true 0 50000) (fun t => t.t.toInt == 8500) := by decide
theorem test_est_unclamped : leaves .est (engine false 0 (-8388608)) (fun t => t.t.toInt == -2148915) := by decide
theorem test_eval_negative : leaves .eval (engine false (-2558) 0)
    (fun t => t.f.toInt == -62442311856 && t.d.toInt == 4565920637) := by decide
theorem test_eval_wraps : leaves .eval (engine false (-2148915) (-8388608))
    (fun t => t.f.toInt == -26668711281882224 && t.d.toInt == 981568763707) := by decide
theorem test_nrit_positive : leaves .nrit (engine true 985 13850)
    (fun t => t.t.toInt == 999 && t.f.toInt == -5635499375 && t.d.toInt == 379453250 && t.it == 1) := by decide
theorem test_nrit_negative_gain : leaves .nrit (engine false (-1016) 6026)
    (fun t => t.t.toInt == -1000 && t.f.toInt == -6528980357 && t.it == 1) := by decide
theorem test_clmp_lowest : leaves .clmp (engine false (-9223372036854775808) 0) (fun t => t.temp.toInt == -2000) := by
  decide
theorem test_clmp_inside : leaves .clmp (engine false (-1999) 0) (fun t => t.temp.toInt == -1999) := by decide
theorem test_cvt_positive : leaves .cvt (engine false 0 39048)
    (fun t => t.temp.toInt == 8499 && t.f.toInt == -281410775 && t.d.toInt == 292666550 && t.it == 4 && t.br) := by
  decide +kernel
theorem test_cvt_wraps : leaves .cvt (engine true 5 (-2147483648))
    (fun t => t.temp.toInt == -2000 && t.t.toInt == -549414059 && t.f.toInt == 9222939647517462146 && t.it == 3) := by
  decide +kernel
theorem test_meas_good : leaves .meas (drawing [0x00, 0x52, 0x74])
    (fun t => t.raw == 10554 && t.res.toInt == 13849 && t.temp.toInt == 999 && !t.fault) := by decide +kernel
theorem test_meas_fault_converts : leaves .meas (drawing [0, 0xFF, 0xFF, 0, 0])
    (fun t => t.raw == 32767 && t.res.toInt == 42998 && t.temp.toInt == 8500 && t.fault) := by decide +kernel
theorem test_rd_temp_sign_extends : leaves (.rd 2) { State.reset with temp := BitVec.ofInt 16 (-2000) }
    (fun t => t.responses == [0xFFFFFFFFFFFFF830]) := by decide
theorem test_rd_status : leaves (.rd 3) { State.reset with fault := true, br := true } (fun t => t.responses == [3]) := by
  decide

/-- `withFetchWord` presents the word the next step runs. -/
theorem test_step_runs_fetched_word :
    step (State.reset.withFetchWord 32 0x06002710) =
      exec (.setr 10000#24) (acceptCommand (State.reset.withFetchWord 32 0x06002710)) := rfl

/-- A final clamp that changes nothing meets no condition, one that does meets `AN_RANGE` (60_exceptions R189). -/
theorem test_conditions_clmp :
    conditions .clmp (engine false (-2001) 0) = [.range] ∧ conditions .clmp (engine false (-2000) 0) = [] := by decide

theorem test_assemble_setr_negative :
    assembleLine ['S', 'E', 'T', 'R', ' ', '-', '1', ' ', ';', 'x'] = some [.setr 0xFFFFFF#24] := by decide
/-- U+2212, the minus sign of 95_test_vectors 2.2. -/
theorem test_assemble_setr_minus_sign :
    assembleLine ['S', 'E', 'T', 'R', ' ', '\u2212', '1'] = some [.setr 0xFFFFFF#24] := by decide

/-! ### Witnesses: for each statement with hypotheses, a state and operands that meet them -/

theorem witness_DecodeOfEncodeIsTheCommand :
    (Instr.rd 7#4).WellFormed = true ∧ (Instr.setr 0x800000#24).WellFormed = true := by decide
theorem witness_LegalWordIsTheWordOfItsCommand : decode 0x0F000007#32 = .legal (.rd 7#4) := by decide
theorem witness_OpcodeMapReadsAsPrinted :
    rowOf .nop ∈ opcodeTable ∧ (rowOf .nop).Matches 0#32 ∧ rowOf (.rd 0) ∈ opcodeTable ∧
      (rowOf (.rd 0)).Matches 0x0F000007#32 := by
  unfold OpcodeRow.Matches; decide
/-- One word at a boundary of each clause. -/
theorem witness_ReservedWordsAreNamedByTheirRule :
    (0x10000000#32).toNat / 16777216 = 16 ∧ (0xFFFFFFFF#32).toNat / 16777216 = 255 ∧
    ((0x0E000001#32).toNat / 16777216 ∈ [0, 1, 2, 3, 5, 8, 9, 10, 11, 12, 13, 14] ∧
      (0x0E000001#32).toNat % 16777216 ≠ 0) ∧
    ((0x04010000#32).toNat / 16777216 = 4 ∧ (0x04010000#32).toNat % 16777216 / 65536 ≠ 0) ∧
    ((0x0F000010#32).toNat / 16777216 = 15 ∧ (0x0F000010#32).toNat % 16777216 / 16 ≠ 0) ∧
    ((0x0F000008#32).toNat / 16777216 = 15 ∧ (0x0F000008#32).toNat % 16777216 / 16 = 0 ∧
      8 ≤ (0x0F000008#32).toNat % 16777216) ∧
    (0x06FFFFFF#32).toNat / 16777216 = 6 ∧ (0x07800000#32).toNat / 16777216 = 7 := by decide
theorem witness_StepRunsTheDecodedCommand :
    (given 0x0D000000).pending = .command 0x0D000000#32 :: [] ∧ decode 0x0D000000#32 = .legal .cvt ∧
      Instr.cvt.WellFormed = true := by decide
theorem witness_ReservedWordSetsIllAndNothingElse :
    (given 0x0F000008).pending = .command 0x0F000008#32 :: [] ∧ decode 0x0F000008#32 = .reserved .registerIndex := by
  decide
theorem witness_IllIsStickyAndReadByNothing :
    ((given 0x10000000).pending = .command 0x10000000#32 :: [] ∧ decode 0x10000000#32 = .reserved .opcode) ∧
    (∃ t, step { given 0x01000000 with ill := true } = .next t ∧ t.ill = false) ∧
    ((Instr.rd 7).WellFormed = true ∧ Instr.rd 7 ≠ .rst ∧ Instr.rd 7 ≠ .rd 3 ∧
      ∃ t, exec (.rd 7) { State.reset with ill := true } = .next t) ∧
    ∃ t, exec (.rd 3) { State.reset with ill := true } = .next t ∧ t.responses = [4] :=
  ⟨⟨rfl, by decide⟩, ⟨_, rfl, rfl⟩, ⟨by decide, by decide, by decide, _, rfl⟩, _, rfl, by decide⟩
theorem witness_EveryCommandAndStepCompletes : State.reset.pending = [] := rfl
theorem witness_ResetLeavesTheTabledValues :
    ({ State.reset with pending := [.resetPin], temp := 999 } : State).pending = .resetPin :: [] := rfl
theorem witness_ResetPinKeepsThePortRecords :
    ({ State.reset with pending := [.resetPin], responses := [5], idx := 2 } : State).pending = .resetPin :: [] := rfl
theorem witness_CommandsOnlyAddToTraceAndResponses : ∃ t, exec (.rd 7) State.reset = .next t ∧ t.responses = [0] :=
  ⟨_, rfl, by decide⟩
theorem witness_RstZeroesTheRegistersAndKeepsTheTrace :
    (∃ t, exec .rst { State.reset with ill := true } = .next t ∧ t.ill = false) ∧
    ({ State.reset with pending := [.resetPin] } : State).pending = .resetPin :: [] := ⟨⟨_, rfl, rfl⟩, rfl⟩
/-- The five printed codes, and two states in order. -/
theorem witness_ScaleWritesTheScaledCode :
    (∃ t, exec .scale { State.reset with raw := 7620 } = .next t ∧ t.res.toInt = 9999) ∧
    (∃ t, exec .scale { State.reset with raw := 7621 } = .next t ∧ t.res.toInt = 10000) ∧
    (∃ t, exec .scale { State.reset with raw := 0 } = .next t ∧ t.res.toInt = 0) ∧
    (∃ t, exec .scale { State.reset with raw := 32767 } = .next t ∧ t.res.toInt = 42998) ∧
    (∃ t, exec .scale { State.reset with raw := 10554 } = .next t ∧ t.res.toInt = 13849) :=
  ⟨⟨_, rfl, by decide⟩, ⟨_, rfl, by decide⟩, ⟨_, rfl, by decide⟩, ⟨_, rfl, by decide⟩, ⟨_, rfl, by decide⟩⟩
theorem witness_SetrWritesTheSignExtendedImmediate :
    ∃ t, exec (.setr 0x7FFFFF) State.reset = .next t ∧ t.res ≠ State.reset.res ∧ t.res.toInt = 8388607 :=
  ⟨_, rfl, by decide, by decide⟩
theorem witness_RdRespondsWithTheExtendedRegister :
    (0#4).toNat < 8 ∧ (7#4).toNat < 8 ∧ 8 ≤ (8#4).toNat ∧ 8 ≤ (15#4).toNat ∧
      (0x0F000013#32).toNat / 16777216 = 15 ∧ (0x0F000013#32).toNat % 16777216 / 16 ≠ 0 := by decide
theorem witness_DecInterpretsTheTwoGivenBytes :
    (0xFE#8).toNat % 2 = 0 ∧ (0xFF#8).toNat % 2 = 1 ∧ (0x04015275#32).toNat / 16777216 = 4 ∧
      (0x04015275#32).toNat % 16777216 / 65536 ≠ 0 := by decide
theorem witness_RdrtdReadsAndInterprets :
    (drawAt (drawing [0, 0x52, 0x74]) 1 = 0x52 ∧ drawAt (drawing [0, 0x52, 0x74]) 2 = 0x74 ∧ (0x74#8).toNat % 2 = 0) ∧
    (drawAt (drawing [0, 0x00, 0x01]) 1 = 0x00 ∧ drawAt (drawing [0, 0x00, 0x01]) 2 = 0x01 ∧ (0x01#8).toNat % 2 = 1) := by
  decide
theorem witness_ReadWordIsTheDrawnBytesMsbFirst : (drawing [0xA5, 0x52, 0x75]).draws = 0xA5 :: 0x52 :: 0x75 :: [] := rfl
theorem witness_FaultChangesOnlyByDecodeOrReset : ∃ t, exec (.dec 0 1) State.reset = .next t ∧ t.fault ≠ State.reset.fault :=
  ⟨_, rfl, by decide⟩
theorem witness_WrapAndDivisionFollowTheirDefinitions :
    tdiv (-9223372036854775808) 1 = -9223372036854775808 ∧ tdiv (-7) 2 = -3 ∧ tdiv 7 (-2) = -3 ∧ tdiv 0 5 = 0 := by decide
theorem witness_EvalWritesResidualAndDerivative :
    ((engine true 985 13850).br = true ∧ (engine false (-2558) 0).br = false) ∧
    ((engine true 0 10000).t = 0 ∧ (engine true 0 10000).res = 10000 ∧ ∃ t, exec .eval (engine true 0 10000) = .next t) ∧
    ((engine false (-2000) 1852).br = false ∧ (engine false (-2000) 1852).t.toInt = -2000 ∧
      (engine false (-2000) 1852).res = 1852 ∧ ∃ t, exec .eval (engine false (-2000) 1852) = .next t) :=
  ⟨by decide, ⟨by decide, by decide, _, rfl⟩, by decide, by decide, by decide, _, rfl⟩
theorem witness_EvalIsExactUpTo6600 :
    ((engine false (-6600) (-2147483648)).t.toInt = -6600 ∧
      exactResidual false (-6600) (-2147483648) = 214745619790216320 ∧ exactDerivative false (-6600) = 10027617512) ∧
    ((engine false 6600 2147483647).t.toInt = 6600 ∧
      exactResidual false 6600 2147483647 = -214745710234630080 ∧ exactDerivative false 6600 = -1117748632) := by decide
theorem witness_DerivativesStayAwayFromZero :
    dPos Config.cfg 0 = 390830000 ∧ dPos Config.cfg 8500 = 292655000 ∧ dNeg Config.cfg 0 = 3908300000 ∧
      dNeg Config.cfg (-6600) = 10027617512 := by decide
theorem witness_BselTestsRESAgainstTheIcePoint :
    branchOf 10000 = true ∧ (engine true 0 10000).res.toInt = 10000 ∧ (engine true 0 9999).res.toInt = 9999 ∧
      (engine true 0 (-1)).res.toInt < 0 ∧ ∃ t, exec .bsel (engine true 0 9999) = .next t :=
  ⟨by decide, by decide, by decide, by decide, _, rfl⟩
/-- The six printed corner cases of `EST`. -/
theorem witness_EstLoadsTheLinearEstimate :
    (leaves .est (engine true 0 10000) fun t => t.t.toInt == 0) ∧ (leaves .est (engine true 0 50000) fun t => t.t.toInt == 8500) ∧
    (leaves .est (engine true 0 9999) fun t => t.t.toInt == 0) ∧ (leaves .est (engine false 0 0) fun t => t.t.toInt == -2558) ∧
    (leaves .est (engine false 0 9999) fun t => t.t.toInt == 0) ∧ (leaves .est (engine true 0 13850) fun t => t.t.toInt == 985) ∧
    (leaves .est { engine true 0 13850 with it := 3 } fun t => t.it == 0) := by
  decide
/-- The bound of each branch; an estimate, outside what a device can reach, at which the positive derivative wraps to 0;
and an ordinary pass. -/
theorem witness_NritRunsOneBoundedIteration :
    ((if ({ engine true 0 0 with it := 4 } : State).br then 4 else 3) ≤ ({ engine true 0 0 with it := 4 } : State).it.toNat) ∧
    ((if ({ engine false 0 0 with it := 3 } : State).br then 4 else 3) ≤ ({ engine false 0 0 with it := 3 } : State).it.toNat) ∧
    (derivativeAt Config.cfg true (engine true 2196040961155932840 0).t.toInt = 0 ∧
      (engine true 2196040961155932840 0).it.toNat < 4) ∧
    (derivativeAt Config.cfg true (engine true 985 13850).t.toInt ≠ 0 ∧ (engine true 985 13850).it.toNat < 4) ∧
    ((engine true 985 13850).br = true ∧ (engine true 985 13850).res = 13850 ∧ (engine true 985 13850).t = 985 ∧
      (engine true 985 13850).it = 0) := by decide
theorem witness_EvalDoesNotDisturbTheNextNrit :
    (engine true 985 13850).it.toNat < 4 ∧ ∃ e, exec .eval (engine true 985 13850) = .next e := ⟨by decide, _, rfl⟩
/-- The zero-derivative arms of `NRIT` can be met: the positive one stops, the negative one, under a configuration of
zero coefficients, skips (43_rootfinder R157). -/
theorem witness_zero_derivative_arms :
    (iterate Config.cfg (engine true 2196040961155932840 0)).it = 4 ∧
    (iterate { Config.cfg with A1 := 0, B2 := 0, C15 := 0 } (engine false 5 0)).it = 1 ∧
    (iterate { Config.cfg with A1 := 0, B2 := 0, C15 := 0 } (engine false 5 0)).t = 5 := by decide
theorem witness_AtMostFourIterationsAfterAnEstimate : (engine true 985 13850).it = 0 := rfl
theorem witness_ClmpClampsTheWholeEstimate :
    (engine true (-9223372036854775808) 0).t.toInt = -9223372036854775808 ∧
    (engine true 9223372036854775807 0).t.toInt = 9223372036854775807 ∧ (engine true (-2421) 0).t.toInt = -2421 := by decide
theorem witness_CvtResultDependsOnResAlone :
    (engine true 5 13850).res = (engine false 7 13850).res ∧ (∃ t, exec .cvt (engine true 5 13850) = .next t) ∧
      ∃ t, exec .cvt (engine false 7 13850) = .next t := ⟨rfl, ⟨_, rfl⟩, _, rfl⟩
theorem witness_TempIsWrittenOnlyThroughTheFinalClamp :
    (∃ t, exec .clmp (engine true 9 0) = .next t ∧ t.temp ≠ (engine true 9 0).temp) ∧
    (∃ t, exec .cvt (engine true 9 0) = .next t) ∧ ∃ t, exec .meas (drawing [0, 0, 0]) = .next t :=
  ⟨⟨_, rfl, by decide⟩, ⟨_, rfl⟩, _, rfl⟩
theorem witness_MeasReadsScalesAndConverts :
    drawAt (drawing [0, 0xFF, 0xFF]) 1 = 0xFF ∧ drawAt (drawing [0, 0xFF, 0xFF]) 2 = 0xFF ∧
    drawAt (drawing [0, 0x3B, 0x88]) 1 = 0x3B ∧ drawAt (drawing [0, 0x3B, 0x88]) 2 = 0x88 := by decide
theorem witness_MeasResultsDependOnTheTwoBytesOnly :
    drawAt (drawing [1, 0x52, 0x74]) 1 = drawAt (drawing [2, 0x52, 0x74]) 1 ∧
    drawAt (drawing [1, 0x52, 0x74]) 2 = drawAt (drawing [2, 0x52, 0x74]) 2 ∧
    (∃ t, exec .meas (drawing [1, 0x52, 0x74]) = .next t) ∧ ∃ t, exec .meas (drawing [2, 0x52, 0x74]) = .next t :=
  ⟨by decide, by decide, ⟨_, rfl⟩, _, rfl⟩
theorem witness_TimeoutReadsAsZeroAndEndsAtTheColdClamp :
    drawAt (drawing [0, 0, 0]) 1 = Config.TIMEOUT_SENTINEL ∧ drawAt (drawing [0, 0, 0]) 2 = Config.TIMEOUT_SENTINEL := by
  decide
/-- Both ends of both ranges. -/
theorem witness_ConversionSaturatesAtBothEnds :
    convert Config.cfg 39049 = 8500 ∧ convert Config.cfg 2147483647 = 8500 ∧ convert Config.cfg 0 = -2000 ∧
      convert Config.cfg 1856 = -2000 := by decide +kernel
theorem witness_PositiveBranchComputesInExactIntegers :
    (engine true 0 10000).res.toInt = 10000 ∧ exactPosConvert 10000 = 0 ∧ exactPosPasses 10000 3 0 = 0 ∧ (engine true 0 2147483647).res.toInt = 2147483647 ∧
      exactPosConvert 2147483647 = 8500 := by decide +kernel
theorem witness_CommandsWriteOnlyTheirTabledItems :
    (∃ t, exec .cvt State.reset = .next t) ∧ Item.RAW ∉ writtenItems .cvt ∧ Item.trace ∉ writtenItems (.dec 0 0) :=
  ⟨⟨_, rfl⟩, by decide, by decide⟩
theorem witness_CommandsMakeTheTabledExchanges :
    (∃ t, exec .rdrtd (drawing [0, 0, 1]) = .next t ∧ t.xfers = 5) ∧ ∃ t, exec .rdrtd (drawing [0, 0, 0]) = .next t ∧ t.xfers = 3 :=
  ⟨⟨_, rfl, by decide⟩, _, rfl, by decide⟩
theorem witness_ConditionsAreThoseOfTheCauseTable :
    (∃ t, exec (.dec 0 1) State.reset = .next t ∧ t.fault = true ∧ .devFault ∈ conditions (.dec 0 1) State.reset) ∧
    (∃ t, exec .rdrtd (drawing [0, 0, 0]) = .next t ∧ t.fault = false) ∧
    .dZero ∈ conditions .nrit (engine true 2196040961155932840 0) ∧
    (∃ t, exec .cvt (engine false 0 0) = .next t ∧ t.res.toInt < 10000 ∧ t.t.toInt < -2000 ∧
      .range ∈ conditions .cvt (engine false 0 0)) ∧
    (∃ t, exec .cvt (engine false 0 9999) = .next t ∧ t.res.toInt < 10000 ∧ .range ∉ conditions .cvt (engine false 0 9999)) ∧
    (∃ t, exec .meas (drawing [0, 0, 0]) = .next t ∧ t.res.toInt < 10000 ∧ .range ∈ conditions .meas (drawing [0, 0, 0])) :=
  ⟨⟨_, rfl, by decide, by decide⟩, ⟨_, rfl, by decide⟩, by decide, ⟨_, rfl, by decide, by decide, by decide +kernel⟩,
    ⟨_, rfl, by decide, by decide +kernel⟩, _, rfl, by decide, by decide +kernel⟩
theorem witness_CvtComputesConvertOfRes :
    ((engine false 0 10000).res.toInt = 10000 ∧ decide ((10000 : Int) ≤ 10000) = true ∧ estimate Config.cfg true 10000 = 0) ∧
    ((engine true 0 0).res.toInt = 0 ∧ decide ((10000 : Int) ≤ 0) = false ∧ estimate Config.cfg false 0 = -2558) := by decide
theorem witness_StepKeepsTheRegisterRanges : RegisterRanges State.reset ∧ ∃ t, step (given 0x0D000000) = .next t :=
  ⟨by decide, _, rfl⟩
theorem witness_StepKeepsTheTraceInWholeSequences :
    sequencesOnly Config.cfg [.sel, .xfer 0x01 9, .xfer 0x00 0x52, .xfer 0x00 0x75, .desel, .sel, .xfer 0x80 1, .xfer 0xD0 2, .desel]
      = true ∧ ∃ t, step (given 0x0E000000) = .next t := ⟨by decide, _, rfl⟩
theorem witness_StepKeepsResWritable : ResWritable (engine true 0 (-8388608)) ∧ ResWritable (engine true 0 8388607) ∧
    ∃ t, step (given 0x05000000) = .next t := ⟨by decide, by decide, _, rfl⟩
/-- A configuration other than the decided one. -/
theorem witness_InvariantsHoldUnderEveryConfiguration :
    RegisterRanges (given 0x02000000) ∧ sequencesOnly { Config.cfg with CFG_WR_OP := 7 } (given 0x02000000).trace = true ∧
    ∃ t, stepUnder { Config.cfg with CFG_WR_OP := 7 } (given 0x02000000) = .next t ∧
      t.trace.take 2 = [.sel, .xfer 7 (drawAt (given 0x02000000) 0)] := ⟨by decide, rfl, _, rfl, rfl⟩
theorem witness_StatusFieldsChangeOneAtATimeExceptInMeas :
    (∃ t, exec (.dec 0 1) State.reset = .next t ∧ t.fault ≠ State.reset.fault) ∧ Instr.dec 0 1 ≠ .rst ∧
    Instr.dec 0 1 ≠ .meas ∧ ({ State.reset with pending := [.resetPin], ill := true } : State).pending = .resetPin :: [] :=
  ⟨⟨_, rfl, by decide⟩, by decide, by decide, rfl⟩
/-- Both outcomes of each clamp of the positive branch. -/
theorem witness_PositiveClampsMeetTheRangeCondition :
    (.range ∈ conditions .est (engine true 0 9000) ∧ .range ∉ conditions .est (engine true 0 10000)) ∧
    (.range ∈ conditions .nrit (engine true 0 50000) ∧ .range ∉ conditions .nrit (engine true 985 13850)) ∧
    ((engine true 0 50000).res.toInt = 50000 ∧ convertPasses Config.cfg true 50000 0 (clamp 10234 0 8500) = 8500 ∧
      .range ∈ conditions .cvt (engine true 0 50000)) ∧ .range ∉ conditions .cvt (engine true 0 10000) := by decide +kernel

end Sys2Proof.Tests
end

