-- ==== Sys2Proof/Proofs/Completion.lean ====
section
/-!
PROOFS. What each command and each kind of host action answers, said once, and from that: the block never traps or
stops (00_scope R15, 70_reset_and_hazards R229, R231).
-/
namespace Sys2Proof.Machine

/-! ### What each command answers -/

@[simp] theorem exec_nop (s : State) : exec .nop s = .next s := rfl
@[simp] theorem exec_rst (s : State) : exec .rst s = .next (clearRegisters s) := rfl
@[simp] theorem exec_init (s : State) : exec .init s = .next (cfgWrite Config.cfg s) := rfl
@[simp] theorem exec_rdrtd (s : State) : exec .rdrtd s = .next (readAndInterpret Config.cfg s) := rfl
@[simp] theorem exec_dec (msb lsb : Byte) (s : State) :
    exec (.dec msb lsb) s = .next (interpret Config.cfg msb lsb s) := rfl
@[simp] theorem exec_scale (s : State) : exec .scale s = .next (scaleToRes Config.cfg s) := rfl
@[simp] theorem exec_setr (imm : BitVec 24) (s : State) : exec (.setr imm) s = .next (setRes (immRes imm) s) := rfl
@[simp] theorem exec_sett (imm : BitVec 24) (s : State) : exec (.sett imm) s = .next (setT (immT imm) s) := rfl
@[simp] theorem exec_bsel (s : State) : exec .bsel s = .next (selectBranch s) := rfl
@[simp] theorem exec_est (s : State) : exec .est s = .next (loadEstimate Config.cfg s) := rfl
@[simp] theorem exec_eval (s : State) : exec .eval s = .next (evaluate Config.cfg s) := rfl
@[simp] theorem exec_nrit (s : State) : exec .nrit s = .next (iterate Config.cfg s) := rfl
@[simp] theorem exec_clmp (s : State) : exec .clmp s = .next (clampToTemp s) := rfl
@[simp] theorem exec_cvt (s : State) : exec .cvt s = .next (convertRes Config.cfg s) := rfl
@[simp] theorem exec_meas (s : State) :
    exec .meas s = .next (convertRes Config.cfg (scaleToRes Config.cfg (readAndInterpret Config.cfg s))) := rfl

/-- A read of one of the eight registers responds with its value (41_scaler_and_moves R116). -/
theorem exec_rd_of_some {reg : BitVec 4} {s : State} {v : Response} (h : readReg reg s = some v) :
    exec (.rd reg) s = .next (respond v s) := by
  simp only [exec, execRd, h]

/-- A read of a reserved index raises `IllegalCommand` (30_encoding R77). -/
theorem exec_rd_of_none {reg : BitVec 4} {s : State} (h : readReg reg s = none) :
    exec (.rd reg) s = .next (raiseIllegalCommand s) := by
  simp only [exec, execRd, h]

/-! ### What each host action answers -/

section
variable {run : Instr → State → Result} {s : State} {rest : List HostAction} {w : CmdWord}

theorem takeAction_idle (hp : s.pending = []) : takeAction run s = .next s := by
  simp only [takeAction, hp]

theorem takeAction_resetPin (hp : s.pending = .resetPin :: rest) :
    takeAction run s = .next (resetByPin (dropAction s)) := by
  simp only [takeAction, hp]

theorem takeAction_legal {i : Instr} (hp : s.pending = .command w :: rest) (hd : decode w = .legal i) :
    takeAction run s = run i (acceptCommand s) := by
  simp only [takeAction, hp, hd]

theorem takeAction_reserved {why : Reserved} (hp : s.pending = .command w :: rest)
    (hd : decode w = .reserved why) : takeAction run s = .next (raiseIllegalCommand (acceptCommand s)) := by
  simp only [takeAction, hp, hd]

/-- The block completes a host action whenever it completes every command. -/
theorem takeAction_completes (hrun : ∀ (i : Instr) (s : State), ∃ t, run i s = .next t) (s : State) :
    ∃ t, takeAction run s = .next t := by
  match hp : s.pending with
  | [] => exact ⟨_, takeAction_idle hp⟩
  | .resetPin :: _ => exact ⟨_, takeAction_resetPin hp⟩
  | .command w :: _ =>
    match hd : decode w with
    | .legal i =>
      obtain ⟨t, ht⟩ := hrun i (acceptCommand s)
      exact ⟨t, (takeAction_legal hp hd).trans ht⟩
    | .reserved _ => exact ⟨_, takeAction_reserved hp hd⟩

end

/-! ### Completion -/

/-- Every command is a straight line or a bounded loop and answers a next state; the one command with a case of its own
is `RD`, which answers on a reserved index too (70_reset_and_hazards R229). -/
theorem exec_completes (i : Instr) (s : State) : ∃ t, exec i s = .next t := by
  cases i with
  | rd reg =>
    cases h : readReg reg s with
    | none => exact ⟨_, exec_rd_of_none h⟩
    | some v => exact ⟨_, exec_rd_of_some h⟩
  | _ => simp

theorem step_completes (s : State) : ∃ t, step s = .next t := takeAction_completes exec_completes s

theorem step_idle {s : State} (hp : s.pending = []) : step s = .next s := takeAction_idle hp

/-- Settles O11: the commands case by case, then the host actions, each of which completes when the commands do. -/
theorem everyCommandAndStepCompletes : Obligations.EveryCommandAndStepCompletes :=
  ⟨exec_completes, step_completes, fun _ => step_idle⟩

end Sys2Proof.Machine
end

