-- ==== Sys2Proof/Proofs/Arithmetic.lean ====
section
/-!
PROOFS. The definitions of `wrap64`, `tdiv` and `clamp` against 00_scope R12: the quotient through its sign and its
size, and the one division whose quotient leaves the 64-bit range (42_evaluator R137 (c), (e)).
-/
namespace Sys2Proof.Machine

theorem dvd_sub_wrap64 (z : Int) : (18446744073709551616 : Int) ∣ z - wrap64 z :=
  Int.dvd_self_sub_bmod (m := 18446744073709551616)

/-- The quotient rounded toward zero has the product of the signs and the rounded-down quotient of the sizes; where it
is 0 its sign does not count (00_scope R12). -/
theorem tdiv_eq_sign_mul_natAbs_div (a b : Int) :
    Int.tdiv a b = a.sign * b.sign * ((a.natAbs / b.natAbs : Nat) : Int) := by
  have size : (Int.tdiv a b).natAbs = a.natAbs / b.natAbs := Int.natAbs_tdiv a b
  rw [← Int.sign_mul_natAbs (Int.tdiv a b), size, Int.sign_tdiv]
  split_ifs with small
  · simp [Nat.div_eq_of_lt small]
  · rfl

/-- A quotient of 64-bit values leaves the 64-bit range in one case only: by −1 it is the negation, by 1 the dividend
itself, and a larger divisor halves the size at least (00_scope R12). -/
theorem tdiv_range {a b : Int} (lo : -9223372036854775808 ≤ a) (hi : a < 9223372036854775808)
    (hb : b ≠ 0) (h : ¬ (a = -9223372036854775808 ∧ b = -1)) :
    -9223372036854775808 ≤ Int.tdiv a b ∧ Int.tdiv a b < 9223372036854775808 := by
  by_cases hneg : b = -1
  · rw [hneg, Int.tdiv_neg, Int.tdiv_one]
    omega
  by_cases hone : b = 1
  · rw [hone, Int.tdiv_one]
    omega
  have size : (Int.tdiv a b).natAbs = a.natAbs / b.natAbs := Int.natAbs_tdiv a b
  have halved : a.natAbs / b.natAbs ≤ a.natAbs / 2 := Nat.div_le_div_left (by omega) (by omega)
  omega

/-- Inside the range the model's division is the exact rounded quotient, unwrapped. -/
theorem tdiv_of_range {a b : Int} (lo : -9223372036854775808 ≤ a) (hi : a < 9223372036854775808)
    (hb : b ≠ 0) (h : ¬ (a = -9223372036854775808 ∧ b = -1)) : tdiv a b = Int.tdiv a b := by
  obtain ⟨qlo, qhi⟩ := tdiv_range lo hi hb h
  exact wrap64_of_range qlo qhi

/-- Settles O27: the range and the congruence of `wrap64`, the quotient through its sign and size, the one division
that wraps, evaluated, and the definition of `clamp`. -/
theorem wrapAndDivisionFollowTheirDefinitions : Obligations.WrapAndDivisionFollowTheirDefinitions := by
  refine ⟨fun z => ?wrap, fun a b lo hi _ _ hb h => ?quotient, ?wrapping, fun _ _ _ => rfl⟩
  case wrap => exact ⟨(wrap64_range z).1, (wrap64_range z).2, dvd_sub_wrap64 z⟩
  case quotient => rw [tdiv_of_range lo hi hb h, tdiv_eq_sign_mul_natAbs_div]
  case wrapping => decide

end Sys2Proof.Machine
end

