-- ==== Sys2Proof/Proofs/Effect.lean ====
section
/-!
PROOFS. The state each command answers, as a total function of the configuration, the command and the state, and the
machine as the parametric machine at the decided record (10_state R32 (c)).
-/
namespace Sys2Proof.Machine

/-! ### The state a command answers -/

/-- The state after a read of `x[reg]` (41_scaler_and_moves R116). -/
def readEffect (reg : BitVec 4) (s : State) : State :=
  match readReg reg s with
  | some v => respond v s
  | none => raiseIllegalCommand s

/-- The state a command answers under a configuration: no command stops (00_scope R15), so it is a function. -/
def effect (c : Config.Cfg) (i : Instr) (s : State) : State :=
  match i with
  | .nop => s
  | .rst => clearRegisters s
  | .init => cfgWrite c s
  | .rdrtd => readAndInterpret c s
  | .dec msb lsb => interpret c msb lsb s
  | .scale => scaleToRes c s
  | .setr imm => setRes (immRes imm) s
  | .sett imm => setT (immT imm) s
  | .bsel => selectBranch s
  | .est => loadEstimate c s
  | .eval => evaluate c s
  | .nrit => iterate c s
  | .clmp => clampToTemp s
  | .cvt => convertRes c s
  | .meas => convertRes c (scaleToRes c (readAndInterpret c s))
  | .rd reg => readEffect reg s

theorem execUnder_eq_effect (c : Config.Cfg) (i : Instr) (s : State) : execUnder c i s = .next (effect c i s) := by
  cases i with
  | rd reg =>
    simp only [execUnder, execRd, effect, readEffect]
    cases readReg reg s <;> rfl
  | _ => rfl

theorem exec_eq_execUnder (i : Instr) (s : State) : exec i s = execUnder Config.cfg i s := by
  cases i <;> rfl

theorem exec_eq_effect (i : Instr) (s : State) : exec i s = .next (effect Config.cfg i s) :=
  (exec_eq_execUnder i s).trans (execUnder_eq_effect Config.cfg i s)

/-- What a command answers is its effect. -/
theorem eq_effect_of_exec {i : Instr} {s t : State} (h : exec i s = .next t) : t = effect Config.cfg i s := by
  rw [exec_eq_effect] at h
  injection h with h
  exact h.symm

theorem step_eq_stepUnder (s : State) : step s = stepUnder Config.cfg s := by
  have h : exec = execUnder Config.cfg := funext₂ exec_eq_execUnder
  rw [step, stepUnder, h]

/-- Settles O57: the commands one by one, and the step because it takes the commands as a parameter. -/
theorem stepIsTheStepUnderTheDecidedConfiguration : Obligations.StepIsTheStepUnderTheDecidedConfiguration :=
  ⟨exec_eq_execUnder, step_eq_stepUnder⟩

theorem stepUnder_completes (c : Config.Cfg) (s : State) : ∃ t, stepUnder c s = .next t :=
  takeAction_completes (fun i s => ⟨_, execUnder_eq_effect c i s⟩) s

theorem step_resetPin {s : State} {rest : List HostAction} (hp : s.pending = .resetPin :: rest) :
    step s = .next (resetByPin (dropAction s)) := takeAction_resetPin hp

theorem step_reserved {s : State} {w : CmdWord} {rest : List HostAction} {why : Reserved}
    (hp : s.pending = .command w :: rest) (hd : decode w = .reserved why) :
    step s = .next (raiseIllegalCommand (acceptCommand s)) := takeAction_reserved hp hd

/-- What every kind of host action keeps, every step keeps: the machine's invariants reduce to this (20_memory R58). -/
theorem stepUnder_keeps {P : State → Prop} {c : Config.Cfg} {s t : State}
    (accept : ∀ s, P s → P (acceptCommand s)) (pin : ∀ s, P s → P (resetByPin (dropAction s)))
    (illegal : ∀ s, P s → P (raiseIllegalCommand s)) (command : ∀ i s, P s → P (effect c i s))
    (hs : P s) (h : stepUnder c s = .next t) : P t := by
  obtain ⟨-, rfl⟩ | ⟨_, -, rfl⟩ | ⟨_, _, i, -, -, hrun⟩ | ⟨_, _, _, -, -, rfl⟩ := takeAction_cases h
  case inl => exact hs
  case inr.inl => exact pin s hs
  case inr.inr.inl =>
    rw [execUnder_eq_effect] at hrun
    injection hrun with hrun
    exact hrun ▸ command i _ (accept s hs)
  case inr.inr.inr => exact illegal _ (accept s hs)

/-! ### The register operand of a read (10_state R21) -/

/-- Exactly the indices 8 to 15 are reserved (30_encoding R77). -/
theorem readReg_eq_none_iff (reg : BitVec 4) (s : State) : readReg reg s = none ↔ 8 ≤ reg.toNat := by
  unfold readReg
  split
  case h_9 =>
    simp only [imp_false] at *
    simp only [true_iff]
    omega
  all_goals
    simp only [reduceCtorEq, false_iff]
    omega

theorem readEffect_of_lt {reg : BitVec 4} (h : reg.toNat < 8) (s : State) :
    ∃ v, readReg reg s = some v ∧ readEffect reg s = respond v s := by
  have hne : readReg reg s ≠ none := fun e => absurd ((readReg_eq_none_iff reg s).mp e) (Nat.not_le.mpr h)
  obtain ⟨v, hv⟩ := Option.ne_none_iff_exists'.mp hne
  exact ⟨v, hv, by rw [readEffect, hv]⟩

theorem readEffect_of_ge {reg : BitVec 4} (h : 8 ≤ reg.toNat) (s : State) :
    readEffect reg s = raiseIllegalCommand s := by
  rw [readEffect, (readReg_eq_none_iff reg s).mpr h]

/-! ### A whole conversion (44_converter R170, R171) -/

/-- The estimate in a branch before pass `n` of a conversion of `r` (44_converter R170). -/
def estimateAfter (c : Config.Cfg) (r : Int) (n : Nat) : Int :=
  convertPasses c (branchOf r) r n (estimate c (branchOf r) r)

/-- Where the loop of a conversion of `r` ends: at its bound, with the estimate after the last pass and the residual and
the derivative at the one before it (44_converter R171). -/
theorem convertRes_results (c : Config.Cfg) {s : State} {r : Int} (hr : s.res.toInt = r) :
    (convertRes c s).it.toNat = iterBound (branchOf r) ∧
    (convertRes c s).t.toInt = estimateAfter c r (iterBound (branchOf r)) ∧
    (convertRes c s).f = toWide (residualAt c (branchOf r) (estimateAfter c r (iterBound (branchOf r) - 1)) r) ∧
    (convertRes c s).d = toWide (derivativeAt c (branchOf r) (estimateAfter c r (iterBound (branchOf r) - 1))) := by
  subst hr
  have bound := iterBound_le (branchOf s.res.toInt)
  have start : (loadEstimate c (selectBranch s)).t.toInt = estimate c (branchOf s.res.toInt) s.res.toInt := by
    simp [loadEstimate, selectBranch]
  obtain ⟨hit, ht, hfd⟩ := iterateWhile_spec c 4 (loadEstimate c (selectBranch s)) (Nat.zero_le _) bound.2
  rw [start] at ht hfd
  have last : iterBound (branchOf s.res.toInt) - 0 = iterBound (branchOf s.res.toInt) - 1 + 1 := by omega
  obtain ⟨hf, hd⟩ := hfd _ last
  exact ⟨hit, ht, hf, hd⟩

/-- A conversion, field by field: each register it writes is a function of `RES` alone (44_converter R170, R171). -/
theorem convertRes_spec (c : Config.Cfg) {s : State} {r : Int} (hr : s.res.toInt = r) :
    convertRes c s =
      { s with
        temp := toTemp (convert c r)
        br := branchOf r
        it := BitVec.ofNat 3 (iterBound (branchOf r))
        t := toWide (estimateAfter c r (iterBound (branchOf r)))
        f := toWide (residualAt c (branchOf r) (estimateAfter c r (iterBound (branchOf r) - 1)) r)
        d := toWide (derivativeAt c (branchOf r) (estimateAfter c r (iterBound (branchOf r) - 1))) } := by
  obtain ⟨hit, ht, hf, hd⟩ := convertRes_results c hr
  have htemp : (convertRes c s).temp = toTemp (convert c r) := by rw [convertRes_temp, ht]; rfl
  rw [convertRes_frame, htemp, hf, hd, ← ht, ← hit, hr, toWide_toInt, BitVec.ofNat_toNat, BitVec.setWidth_eq]

/-- Settles O41: the written registers are functions of `RES`, field by field. -/
theorem cvtResultDependsOnResAlone : Obligations.CvtResultDependsOnResAlone := by
  intro s s' t t' hres ht ht'
  have hr : s.res.toInt = s'.res.toInt := congrArg BitVec.toInt hres
  rw [eq_effect_of_exec ht, eq_effect_of_exec ht', effect, effect, convertRes_spec Config.cfg hr,
    convertRes_spec Config.cfg (s := s') rfl]
  exact ⟨rfl, rfl, rfl, rfl, rfl, rfl⟩

end Sys2Proof.Machine
end

