-- ==== Sys2Proof/Proofs/AccessTable.lean ====
section
/-!
PROOFS. The access table of 10_state R33: which items each shared operation writes, and from the row of a command what
it leaves unchanged.
-/
namespace Sys2Proof.Machine

/-- From `s` to `t` no item outside `items` changes (10_state R33). -/
def WritesOnly (items : List Item) (s t : State) : Prop := ∀ x, x ∉ items → sameItem x s t

/-- Item by item. -/
theorem writesOnly_iff (items : List Item) (s t : State) :
    WritesOnly items s t ↔
      (.RAW ∉ items → t.raw = s.raw) ∧ (.RES ∉ items → t.res = s.res) ∧ (.TEMP ∉ items → t.temp = s.temp) ∧
      (.FAULT ∉ items → t.fault = s.fault) ∧ (.BR ∉ items → t.br = s.br) ∧ (.ILL ∉ items → t.ill = s.ill) ∧
      (.T ∉ items → t.t = s.t) ∧ (.F ∉ items → t.f = s.f) ∧ (.D ∉ items → t.d = s.d) ∧
      (.IT ∉ items → t.it = s.it) ∧ (.trace ∉ items → t.trace = s.trace) := by
  constructor
  · intro h
    exact ⟨h .RAW, h .RES, h .TEMP, h .FAULT, h .BR, h .ILL, h .T, h .F, h .D, h .IT, h .trace⟩
  · rintro ⟨raw, res, temp, fault, br, ill, t, f, d, it, trace⟩ x
    cases x
    case RAW => exact raw
    case RES => exact res
    case TEMP => exact temp
    case FAULT => exact fault
    case BR => exact br
    case ILL => exact ill
    case T => exact t
    case F => exact f
    case D => exact d
    case IT => exact it
    case trace => exact trace

theorem WritesOnly.refl (items : List Item) (s : State) : WritesOnly items s s := by
  simp [writesOnly_iff]

theorem sameItem_trans {x : Item} {s t u : State} (h : sameItem x s t) (h' : sameItem x t u) : sameItem x s u := by
  cases x <;> exact Eq.trans h' h

/-- One operation after another writes what either writes. -/
theorem WritesOnly.trans {items : List Item} {s t u : State} (h : WritesOnly items s t) (h' : WritesOnly items t u) :
    WritesOnly items s u :=
  fun x hx => sameItem_trans (h x hx) (h' x hx)

theorem WritesOnly.mono {items items' : List Item} {s t : State} (h : WritesOnly items s t) (sub : items ⊆ items') :
    WritesOnly items' s t :=
  fun x hx => h x fun hm => hx (sub hm)

/-! ### What each shared operation writes -/

theorem writesOnly_clearRegisters (s : State) :
    WritesOnly [.RAW, .RES, .TEMP, .FAULT, .BR, .ILL, .T, .F, .D, .IT] s (clearRegisters s) := by
  simp [writesOnly_iff]

theorem writesOnly_cfgWrite (c : Config.Cfg) (s : State) : WritesOnly [.trace] s (cfgWrite c s) := by
  simp [writesOnly_iff, cfgWrite_spec]

/-- The clear sequence of a fault is the one part of an interpretation that adds to the trace (40_decoder R91). -/
theorem writesOnly_interpret (c : Config.Cfg) (msb lsb : Byte) (s : State) :
    WritesOnly (writtenItems (.dec msb lsb)) s (interpret c msb lsb s) := by
  cases h : lsb[0] <;> simp [writesOnly_iff, interpret_spec, writtenItems, h]

theorem writesOnly_readAndInterpret (c : Config.Cfg) (s : State) :
    WritesOnly [.RAW, .FAULT, .trace] s (readAndInterpret c s) := by
  simp [writesOnly_iff, readAndInterpret_spec]

theorem writesOnly_scaleToRes (c : Config.Cfg) (s : State) : WritesOnly [.RES] s (scaleToRes c s) := by
  simp [writesOnly_iff, scaleToRes]

theorem writesOnly_setRes (v : Resistance) (s : State) : WritesOnly [.RES] s (setRes v s) := by
  simp [writesOnly_iff]

theorem writesOnly_setT (v : Wide) (s : State) : WritesOnly [.T] s (setT v s) := by
  simp [writesOnly_iff]

theorem writesOnly_selectBranch (s : State) : WritesOnly [.BR] s (selectBranch s) := by
  simp [writesOnly_iff, selectBranch]

theorem writesOnly_loadEstimate (c : Config.Cfg) (s : State) : WritesOnly [.T, .IT] s (loadEstimate c s) := by
  simp [writesOnly_iff, loadEstimate]

theorem writesOnly_evaluate (c : Config.Cfg) (s : State) : WritesOnly [.F, .D] s (evaluate c s) := by
  simp [writesOnly_iff, evaluate]

theorem writesOnly_iterate (c : Config.Cfg) (s : State) : WritesOnly [.T, .F, .D, .IT] s (iterate c s) := by
  rw [iterate_frame]
  simp [writesOnly_iff]

theorem writesOnly_clampToTemp (s : State) : WritesOnly [.TEMP] s (clampToTemp s) := by
  simp [writesOnly_iff, clampToTemp]

theorem writesOnly_convertRes (c : Config.Cfg) (s : State) :
    WritesOnly [.TEMP, .BR, .T, .F, .D, .IT] s (convertRes c s) := by
  simp [writesOnly_iff, convertRes_spec c rfl]

/-- A reserved index raises `IllegalCommand` and the eight registers only respond (41_scaler_and_moves R116). -/
theorem writesOnly_readEffect (reg : BitVec 4) (s : State) :
    WritesOnly (writtenItems (.rd reg)) s (readEffect reg s) := by
  by_cases h : reg.toNat < 8
  · obtain ⟨v, -, he⟩ := readEffect_of_lt h s
    simp [writesOnly_iff, he]
  · simp [writesOnly_iff, writtenItems, h, readEffect_of_ge (Nat.not_lt.mp h), raiseIllegalCommand]

/-! ### The table -/

/-- Under every configuration a command writes the items its row marks and no other; `MEAS` writes what its three parts
write (10_state R33, 44_converter R172). -/
theorem effect_writesOnly (c : Config.Cfg) (i : Instr) (s : State) :
    WritesOnly (writtenItems i) s (effect c i s) := by
  cases i with
  | nop => exact .refl _ s
  | rst => exact writesOnly_clearRegisters s
  | init => exact writesOnly_cfgWrite c s
  | rdrtd => exact writesOnly_readAndInterpret c s
  | dec msb lsb => exact writesOnly_interpret c msb lsb s
  | scale => exact writesOnly_scaleToRes c s
  | setr imm => exact writesOnly_setRes _ s
  | sett imm => exact writesOnly_setT _ s
  | bsel => exact writesOnly_selectBranch s
  | est => exact writesOnly_loadEstimate c s
  | eval => exact writesOnly_evaluate c s
  | nrit => exact writesOnly_iterate c s
  | clmp => exact writesOnly_clampToTemp s
  | cvt => exact writesOnly_convertRes c s
  | meas =>
    have read := (writesOnly_readAndInterpret c s).mono (items' := writtenItems .meas) (by decide)
    have scaled := (writesOnly_scaleToRes c (readAndInterpret c s)).mono (items' := writtenItems .meas) (by decide)
    have converted := (writesOnly_convertRes c (scaleToRes c (readAndInterpret c s))).mono
      (items' := writtenItems .meas) (by decide)
    exact (read.trans scaled).trans converted
  | rd reg => exact writesOnly_readEffect reg s

/-- Settles O49: the table under the decided configuration. -/
theorem commandsWriteOnlyTheirTabledItems : Obligations.CommandsWriteOnlyTheirTabledItems := by
  intro i s t x h
  rw [eq_effect_of_exec h]
  exact effect_writesOnly Config.cfg i s x

/-- A command that changes an item has it marked in its row. -/
theorem mem_writtenItems_of_changed {i : Instr} {s t : State} {x : Item} (h : exec i s = .next t)
    (changed : ¬ sameItem x s t) : x ∈ writtenItems i :=
  Classical.byContradiction fun hx => changed (commandsWriteOnlyTheirTabledItems i s t x h hx)

/-! ### The columns of the table -/

@[simp] theorem mem_writtenItems_dec (x : Item) (msb lsb : Byte) :
    x ∈ writtenItems (.dec msb lsb) ↔ x = .RAW ∨ x = .FAULT ∨ (x = .trace ∧ lsb.getLsbD 0 = true) := by
  cases h : lsb[0] <;> simp [writtenItems, h]

@[simp] theorem mem_writtenItems_rd (x : Item) (reg : BitVec 4) :
    x ∈ writtenItems (.rd reg) ↔ x = .ILL ∧ 8 ≤ reg.toNat := by
  by_cases h : reg.toNat < 8 <;> simp [writtenItems, h]
  omega

theorem res_mem_writtenItems_iff (i : Instr) :
    .RES ∈ writtenItems i ↔ i = .rst ∨ i = .scale ∨ i = .meas ∨ ∃ imm, i = .setr imm := by
  cases i with
  | dec | rd => simp
  | _ => simp [writtenItems]

theorem temp_mem_writtenItems_iff (i : Instr) :
    .TEMP ∈ writtenItems i ↔ i = .clmp ∨ i = .cvt ∨ i = .meas ∨ i = .rst := by
  cases i with
  | dec | rd => simp
  | _ => simp [writtenItems]

theorem fault_mem_writtenItems_iff (i : Instr) :
    .FAULT ∈ writtenItems i ↔ i = .rdrtd ∨ i = .meas ∨ i = .rst ∨ ∃ msb lsb, i = .dec msb lsb := by
  cases i with
  | dec | rd => simp
  | _ => simp [writtenItems]

theorem br_mem_writtenItems_iff (i : Instr) :
    .BR ∈ writtenItems i ↔ i = .bsel ∨ i = .cvt ∨ i = .meas ∨ i = .rst := by
  cases i with
  | dec | rd => simp
  | _ => simp [writtenItems]

theorem ill_mem_writtenItems_iff (i : Instr) :
    .ILL ∈ writtenItems i ↔ i = .rst ∨ ∃ reg, i = .rd reg ∧ 8 ≤ reg.toNat := by
  cases i with
  | dec | rd => simp
  | _ => simp [writtenItems]

theorem it_mem_writtenItems_iff (i : Instr) :
    .IT ∈ writtenItems i ↔ i = .est ∨ i = .nrit ∨ i = .cvt ∨ i = .meas ∨ i = .rst := by
  cases i with
  | dec | rd => simp
  | _ => simp [writtenItems]

theorem trace_mem_writtenItems_iff (i : Instr) :
    .trace ∈ writtenItems i ↔
      i = .init ∨ i = .rdrtd ∨ i = .meas ∨ ∃ msb lsb, i = .dec msb lsb ∧ lsb.getLsbD 0 = true := by
  cases i with
  | dec | rd => simp
  | _ => simp [writtenItems]

/-- A command whose row marks two fields of `STATUS` is `RST` or `MEAS` (10_state R25). -/
theorem status_items_of_ne {i : Instr} (hrst : i ≠ .rst) (hmeas : i ≠ .meas) :
    (.FAULT ∉ writtenItems i ∧ .BR ∉ writtenItems i) ∨ (.FAULT ∉ writtenItems i ∧ .ILL ∉ writtenItems i) ∨
      (.BR ∉ writtenItems i ∧ .ILL ∉ writtenItems i) := by
  simp only [fault_mem_writtenItems_iff, br_mem_writtenItems_iff, ill_mem_writtenItems_iff]
  cases i <;> simp at hrst hmeas ⊢

/-- Settles O26: the `FAULT` column of the table, and the pin is `FAULT` by definition. -/
theorem faultChangesOnlyByDecodeOrReset : Obligations.FaultChangesOnlyByDecodeOrReset :=
  ⟨fun i _ _ h changed => (fault_mem_writtenItems_iff i).mp (mem_writtenItems_of_changed (x := .FAULT) h changed),
    fun _ => rfl⟩

/-! ### The fields of `STATUS` (10_state R25) -/

theorem statusWord_toNat (s : State) :
    (statusWord s).toNat = 4 * s.ill.toNat + 2 * s.br.toNat + s.fault.toNat := by
  unfold statusWord
  cases s.ill <;> cases s.br <;> cases s.fault <;> rfl

theorem statusWord_congr {s t : State} (hill : t.ill = s.ill) (hbr : t.br = s.br) (hfault : t.fault = s.fault) :
    statusWord t = statusWord s := by
  rw [statusWord, statusWord, hill, hbr, hfault]

theorem statusWord_of_clear {s : State} (hill : s.ill = false) (hbr : s.br = false) (hfault : s.fault = false) :
    statusWord s = 0 := by
  rw [statusWord, hill, hbr, hfault]
  rfl

/-- Settles O60: no row but those of `RST` and `MEAS` marks two of the three columns; the parts of `MEAS` are `RDRTD`,
`SCALE` and `CVT`, whose rows do not; a reset leaves the three flags clear. -/
theorem statusFieldsChangeOneAtATimeExceptInMeas : Obligations.StatusFieldsChangeOneAtATimeExceptInMeas := by
  refine ⟨statusWord_toNat, fun i s t h hrst hmeas => ?oneField, fun s => ?meas,
    fun s => ⟨_, exec_rst s, statusWord_of_clear rfl rfl rfl⟩,
    fun s rest hp => ⟨_, step_resetPin hp, statusWord_of_clear rfl rfl rfl⟩⟩
  case oneField =>
    have same (x : Item) (hx : x ∉ writtenItems i) : sameItem x s t :=
      commandsWriteOnlyTheirTabledItems i s t x h hx
    obtain ⟨h1, h2⟩ | ⟨h1, h2⟩ | ⟨h1, h2⟩ := status_items_of_ne hrst hmeas
    · exact .inl ⟨same _ h1, same _ h2⟩
    · exact .inr (.inl ⟨same _ h1, same _ h2⟩)
    · exact .inr (.inr ⟨same _ h1, same _ h2⟩)
  case meas =>
    have read := writesOnly_readAndInterpret Config.cfg s
    have converted := writesOnly_convertRes Config.cfg (scaleToRes Config.cfg (readAndInterpret Config.cfg s))
    exact ⟨_, _, _, exec_meas s, exec_rdrtd s, read .BR (by decide), read .ILL (by decide), exec_scale _,
      statusWord_congr rfl rfl rfl, exec_cvt _, converted .FAULT (by decide), converted .ILL (by decide)⟩

end Sys2Proof.Machine
end

