-- ==== Sys2Proof/Proofs/ResetAndIll.lean ====
section
/-!
PROOFS. The reset values (10_state R34), and the sticky flag `ILL`: what sets it, what clears it, and that no command
depends on it (10_state R28).
-/
namespace Sys2Proof.Machine

/-! ### The reset values -/

/-- Settles O12: the reset state's fields, those the reset pin leaves and those `RST` leaves. -/
theorem resetLeavesTheTabledValues : Obligations.ResetLeavesTheTabledValues := by
  refine ⟨?reset, fun s rest hp => ⟨_, step_resetPin hp, ?pin⟩, fun s => ⟨_, exec_rst s, ?rst⟩⟩
  case reset => simp [State.reset]
  case pin => simp
  case rst => simp

/-! ### Every operation commutes with a change of `ILL` -/

theorem readAndInterpret_setIll (c : Config.Cfg) (v : Bool) (s : State) :
    readAndInterpret c (setIll v s) = setIll v (readAndInterpret c s) := by
  rw [readAndInterpret_spec, readAndInterpret_spec]
  rfl

theorem interpret_setIll (c : Config.Cfg) (msb lsb : Byte) (v : Bool) (s : State) :
    interpret c msb lsb (setIll v s) = setIll v (interpret c msb lsb s) := by
  rw [interpret_spec, interpret_spec]
  rfl

theorem iterate_setIll (c : Config.Cfg) (v : Bool) (s : State) :
    iterate c (setIll v s) = setIll v (iterate c s) := by
  by_cases h : iterBound s.br ≤ s.it.toNat
  · rw [iterate_of_bound c s h, iterate_of_bound c (setIll v s) h]
  · rw [iterate_below_bound c s (Nat.not_le.mp h), iterate_below_bound c (setIll v s) (Nat.not_le.mp h)]
    rfl

theorem convertRes_setIll (c : Config.Cfg) (v : Bool) (s : State) :
    convertRes c (setIll v s) = setIll v (convertRes c s) := by
  rw [convertRes_spec c (s := setIll v s) rfl, convertRes_spec c (s := s) rfl]
  rfl

/-- Only a read of `STATUS` answers `ILL` (10_state R21). -/
theorem readReg_setIll {reg : BitVec 4} (h : reg ≠ 3) (v : Bool) (s : State) :
    readReg reg (setIll v s) = readReg reg s := by
  have h3 : reg.toNat ≠ 3 := fun e => h (BitVec.eq_of_toNat_eq e)
  unfold readReg
  split
  case h_4 e => exact absurd e h3
  all_goals rfl

theorem readEffect_setIll {reg : BitVec 4} (hlt : reg.toNat < 8) (h : reg ≠ 3) (v : Bool) (s : State) :
    readEffect reg (setIll v s) = setIll v (readEffect reg s) := by
  obtain ⟨a, ha, he⟩ := readEffect_of_lt hlt s
  rw [he, readEffect, readReg_setIll h, ha]
  rfl

/-- A legal command other than `RST` and `RD STATUS` does the same whatever `ILL` is, and hands it on (10_state R28). -/
theorem effect_setIll (c : Config.Cfg) {i : Instr} (hwf : i.WellFormed = true) (hrst : i ≠ .rst) (hstatus : i ≠ .rd 3)
    (v : Bool) (s : State) : effect c i (setIll v s) = setIll v (effect c i s) := by
  cases i with
  | rst => exact absurd rfl hrst
  | rdrtd => exact readAndInterpret_setIll c v s
  | dec msb lsb => exact interpret_setIll c msb lsb v s
  | nrit => exact iterate_setIll c v s
  | cvt => exact convertRes_setIll c v s
  | meas =>
    rw [effect, effect, readAndInterpret_setIll]
    exact convertRes_setIll c v (scaleToRes c (readAndInterpret c s))
  | rd reg => exact readEffect_setIll (of_decide_eq_true hwf) (fun e => hstatus (congrArg Instr.rd e)) v s
  | nop | init | scale | setr | sett | bsel | est | eval | clmp => rfl

/-! ### `ILL` is sticky -/

/-- No legal command but `RST` writes `ILL` (10_state R33). -/
theorem ill_not_mem_writtenItems {i : Instr} (hwf : i.WellFormed = true) (hrst : i ≠ .rst) :
    .ILL ∉ writtenItems i := by
  rw [ill_mem_writtenItems_iff]
  rintro (h | ⟨reg, rfl, hge⟩)
  · exact hrst h
  · exact absurd (of_decide_eq_true hwf) (Nat.not_lt.mpr hge)

theorem ill_of_exec {i : Instr} {s t : State} (hwf : i.WellFormed = true) (hrst : i ≠ .rst) (h : exec i s = .next t) :
    t.ill = s.ill :=
  commandsWriteOnlyTheirTabledItems i s t .ILL h (ill_not_mem_writtenItems hwf hrst)

/-- A read of a reserved index writes `ILL` too, but sets it, so `RST` is the one command that clears it. -/
theorem eq_rst_of_ill_cleared {i : Instr} {s t : State} (h : exec i s = .next t) (hs : s.ill = true)
    (ht : t.ill = false) : i = .rst := by
  have changed : ¬ sameItem .ILL s t := fun e => by simp [sameItem, hs, ht] at e
  obtain hrst | ⟨reg, rfl, hge⟩ := (ill_mem_writtenItems_iff i).mp (mem_writtenItems_of_changed h changed)
  · exact hrst
  · rw [eq_effect_of_exec h, effect, readEffect_of_ge hge] at ht
    cases ht

/-- Settles O10: a reserved word raises; of what a step can do only the reset pin and `RST` clear the flag; every other
operation commutes with a change of it. -/
theorem illIsStickyAndReadByNothing : Obligations.IllIsStickyAndReadByNothing := by
  refine ⟨fun s w rest why hp hd => ⟨_, step_reserved hp hd, rfl⟩, fun s t h hs ht => ?cleared,
    fun i s t v hwf hrst hstatus h => ⟨ill_of_exec hwf hrst h, ?commutes⟩,
    fun s t h => ill_of_exec (by decide) (by decide) h, fun s v => rfl⟩
  case cleared =>
    obtain ⟨-, rfl⟩ | ⟨rest, hp, -⟩ | ⟨w, rest, i, hp, hd, hrun⟩ | ⟨_, _, _, -, -, rfl⟩ := step_cases h
    · exact absurd (hs.symm.trans ht) (by decide)
    · exact .inl ⟨rest, hp⟩
    · exact .inr ⟨w, rest, hp, eq_rst_of_ill_cleared hrun hs ht ▸ hd⟩
    · cases ht
  case commutes =>
    rw [eq_effect_of_exec h, exec_eq_effect]
    exact congrArg Host.Outcome.next (effect_setIll Config.cfg hwf hrst hstatus v s)

end Sys2Proof.Machine
end

