-- ==== Sys2Proof/Proofs/Invariants.lean ====
section
/-!
PROOFS. The invariants of 10_state R35, 20_memory R54 and 41_scaler_and_moves R114, under every configuration where they
do not rest on the decided literals, and the runs from reset that keep them.
-/
namespace Sys2Proof.Machine

/-! ### `TEMP` in [−2000, 8500] (10_state R24) -/

/-- A temperature that went through the final clamp (43_rootfinder R158). -/
theorem toTemp_finalTemp_range (t : Int) :
    -2000 ≤ (toTemp (finalTemp t)).toInt ∧ (toTemp (finalTemp t)).toInt ≤ 8500 := by
  rw [toInt_toTemp]
  exact finalTemp_range t

/-- The three commands that write `TEMP` end in the final clamp (43_rootfinder R158, 44_converter R171, R172). -/
theorem effect_temp_range_of_clamp (c : Config.Cfg) {i : Instr} (h : i = .clmp ∨ i = .cvt ∨ i = .meas) (s : State) :
    -2000 ≤ (effect c i s).temp.toInt ∧ (effect c i s).temp.toInt ≤ 8500 := by
  obtain rfl | rfl | rfl := h
  all_goals exact toTemp_finalTemp_range _

/-- Settles O42: the `TEMP` column of the table, and the clamp at the end of the three. -/
theorem tempIsWrittenOnlyThroughTheFinalClamp : Obligations.TempIsWrittenOnlyThroughTheFinalClamp := by
  refine ⟨fun i s t h changed => ?column, fun i s t h hi => ?range⟩
  case column => exact (temp_mem_writtenItems_iff i).mp (mem_writtenItems_of_changed (x := .TEMP) h changed)
  case range =>
    rw [eq_effect_of_exec h]
    exact effect_temp_range_of_clamp Config.cfg hi s

theorem effect_keeps_temp_range (c : Config.Cfg) (i : Instr) {s : State}
    (h : -2000 ≤ s.temp.toInt ∧ s.temp.toInt ≤ 8500) :
    -2000 ≤ (effect c i s).temp.toInt ∧ (effect c i s).temp.toInt ≤ 8500 := by
  by_cases hw : .TEMP ∈ writtenItems i
  · obtain hi | hi | hi | rfl := (temp_mem_writtenItems_iff i).mp hw
    · exact effect_temp_range_of_clamp c (.inl hi) s
    · exact effect_temp_range_of_clamp c (.inr (.inl hi)) s
    · exact effect_temp_range_of_clamp c (.inr (.inr hi)) s
    · change -2000 ≤ (0 : Temperature).toInt ∧ (0 : Temperature).toInt ≤ 8500
      decide
  · have same : (effect c i s).temp = s.temp := effect_writesOnly c i s .TEMP hw
    rwa [same]

/-! ### `IT` at most 4 (43_rootfinder R159) -/

theorem convertRes_it_le (c : Config.Cfg) (s : State) : (convertRes c s).it.toNat ≤ 4 := by
  rw [(convertRes_results c rfl).1]
  exact (iterBound_le _).2

theorem iterate_it_le (c : Config.Cfg) {s : State} (h : s.it.toNat ≤ 4) : (iterate c s).it.toNat ≤ 4 := by
  by_cases hb : s.it.toNat < iterBound s.br
  · exact (iterate_it c s hb).2.trans (iterBound_le s.br).2
  · rwa [iterate_of_bound c s (Nat.not_lt.mp hb)]

theorem effect_keeps_it_le (c : Config.Cfg) (i : Instr) {s : State} (h : s.it.toNat ≤ 4) :
    (effect c i s).it.toNat ≤ 4 := by
  by_cases hw : .IT ∈ writtenItems i
  · obtain rfl | rfl | rfl | rfl | rfl := (it_mem_writtenItems_iff i).mp hw
    · exact Nat.zero_le 4
    · exact iterate_it_le c h
    · exact convertRes_it_le c s
    · exact convertRes_it_le c _
    · exact Nat.zero_le 4
  · have same : (effect c i s).it = s.it := effect_writesOnly c i s .IT hw
    rwa [same]

/-! ### The device select released (20_memory R54, 10_state R32 (b)) -/

theorem readAndInterpret_sel (c : Config.Cfg) (s : State) : (readAndInterpret c s).sel = false := by
  rw [readAndInterpret_spec]

theorem interpret_keeps_sel (c : Config.Cfg) (msb lsb : Byte) {s : State} (h : s.sel = false) :
    (interpret c msb lsb s).sel = false := by
  rw [interpret_spec]
  exact ite_eq_left_iff.mpr fun _ => h

@[simp] theorem convertRes_sel (c : Config.Cfg) (s : State) : (convertRes c s).sel = s.sel := by
  rw [convertRes_frame]

@[simp] theorem iterate_sel (c : Config.Cfg) (s : State) : (iterate c s).sel = s.sel := by
  rw [iterate_frame]

@[simp] theorem readEffect_sel (reg : BitVec 4) (s : State) : (readEffect reg s).sel = s.sel := by
  unfold readEffect
  split <;> rfl

theorem effect_keeps_sel_released (c : Config.Cfg) (i : Instr) {s : State} (h : s.sel = false) :
    (effect c i s).sel = false := by
  cases i with
  | rst => rfl
  | init => rfl
  | rdrtd => exact readAndInterpret_sel c s
  | dec msb lsb => exact interpret_keeps_sel c msb lsb h
  | nrit => exact (iterate_sel c s).trans h
  | cvt => exact (convertRes_sel c s).trans h
  | meas => exact (convertRes_sel c _).trans (readAndInterpret_sel c s)
  | rd reg => exact (readEffect_sel reg s).trans h
  | nop | scale | setr | sett | bsel | est | eval | clmp => exact h

/-! ### The register ranges (10_state R35) -/

theorem registerRanges_of_zero {s : State} (htemp : s.temp = 0) (hit : s.it = 0) (hsel : s.sel = false) :
    RegisterRanges s := by
  rw [RegisterRanges, htemp, hit]
  exact ⟨by decide, by decide, by decide, hsel⟩

theorem effect_keeps_registerRanges (c : Config.Cfg) (i : Instr) {s : State} (h : RegisterRanges s) :
    RegisterRanges (effect c i s) := by
  obtain ⟨hlo, hhi, hit, hsel⟩ := h
  obtain ⟨hlo', hhi'⟩ := effect_keeps_temp_range c i ⟨hlo, hhi⟩
  exact ⟨hlo', hhi', effect_keeps_it_le c i hit, effect_keeps_sel_released c i hsel⟩

theorem stepUnder_keeps_registerRanges {c : Config.Cfg} {s t : State} (hs : RegisterRanges s)
    (h : stepUnder c s = .next t) : RegisterRanges t :=
  stepUnder_keeps (fun _ hs => hs) (fun _ _ => registerRanges_of_zero rfl rfl rfl) (fun _ hs => hs)
    (fun i _ => effect_keeps_registerRanges c i) hs h

/-- Settles O52: every command keeps the three ranges, and the other host actions clear the registers or leave them. -/
theorem stepKeepsTheRegisterRanges : Obligations.StepKeepsTheRegisterRanges := by
  intro s t hs h
  rw [step_eq_stepUnder] at h
  exact stepUnder_keeps_registerRanges hs h

/-! ### Whole sequences on the trace (20_memory R54) -/

/-- Whole sequences after whole sequences are whole sequences. -/
theorem sequencesOnly_append (c : Config.Cfg) (es es' : List Event) (h : sequencesOnly c es = true)
    (h' : sequencesOnly c es' = true) : sequencesOnly c (es ++ es') = true := by
  induction es using sequencesOnly.induct with
  | case1 => exact h'
  | case2 o1 g1 o2 g2 rest ih =>
    simp only [List.cons_append, sequencesOnly, Bool.and_eq_true] at h ⊢
    exact ⟨h.1, ih h.2⟩
  | case3 o1 g1 o2 g2 o3 g3 rest ih =>
    simp only [List.cons_append, sequencesOnly, Bool.and_eq_true] at h ⊢
    exact ⟨h.1, ih h.2⟩
  | case4 es hnil hwrite hread =>
    rw [sequencesOnly] at h
    · cases h
    all_goals assumption

/-- From `s` to `t` whole sequences are added to the trace, or nothing (20_memory R54). -/
def AddsSequences (c : Config.Cfg) (s t : State) : Prop :=
  ∃ es, t.trace = s.trace ++ es ∧ sequencesOnly c es = true

theorem AddsSequences.of_same {c : Config.Cfg} {s t : State} (h : t.trace = s.trace) : AddsSequences c s t :=
  ⟨[], by rw [h, List.append_nil], by rw [sequencesOnly]⟩

theorem AddsSequences.keeps {c : Config.Cfg} {s t : State} (h : AddsSequences c s t)
    (hs : sequencesOnly c s.trace = true) : sequencesOnly c t.trace = true := by
  obtain ⟨es, ht, hes⟩ := h
  rw [ht]
  exact sequencesOnly_append c _ es hs hes

theorem addsSequences_cfgWrite (c : Config.Cfg) (s : State) : AddsSequences c s (cfgWrite c s) := by
  rw [cfgWrite_spec]
  exact ⟨_, rfl, by simp [sequencesOnly]⟩

theorem addsSequences_interpret (c : Config.Cfg) (msb lsb : Byte) (s : State) :
    AddsSequences c s (interpret c msb lsb s) := by
  rw [interpret_spec]
  refine ⟨_, rfl, ?_⟩
  split <;> simp [sequencesOnly]

theorem addsSequences_readAndInterpret (c : Config.Cfg) (s : State) :
    AddsSequences c s (readAndInterpret c s) := by
  rw [readAndInterpret_spec]
  refine ⟨_, rfl, ?_⟩
  split <;> simp [sequencesOnly]

/-- The four commands that use the transport send whole sequences (40_decoder R91 to R95, 44_converter R172). -/
theorem effect_addsSequences (c : Config.Cfg) (i : Instr) (s : State) : AddsSequences c s (effect c i s) := by
  by_cases hw : .trace ∈ writtenItems i
  · obtain rfl | rfl | rfl | ⟨msb, lsb, rfl, -⟩ := (trace_mem_writtenItems_iff i).mp hw
    · exact addsSequences_cfgWrite c s
    · exact addsSequences_readAndInterpret c s
    · obtain ⟨es, hread, hes⟩ := addsSequences_readAndInterpret c s
      have converted := writesOnly_convertRes c (scaleToRes c (readAndInterpret c s)) .trace (by decide)
      exact ⟨es, converted.trans hread, hes⟩
    · exact addsSequences_interpret c msb lsb s
  · exact .of_same (effect_writesOnly c i s .trace hw)

theorem stepUnder_keeps_sequences {c : Config.Cfg} {s t : State} (hs : sequencesOnly c s.trace = true)
    (h : stepUnder c s = .next t) : sequencesOnly c t.trace = true :=
  stepUnder_keeps (P := fun s => sequencesOnly c s.trace = true) (fun _ hs => hs) (fun _ _ => by simp [sequencesOnly])
    (fun _ hs => hs) (fun i s => (effect_addsSequences c i s).keeps) hs h

/-- Settles O58: completion, the ranges and the sequences, of which no proof looks into the record. -/
theorem invariantsHoldUnderEveryConfiguration : Obligations.InvariantsHoldUnderEveryConfiguration :=
  ⟨stepUnder_completes, fun _ _ _ hranges hseq h =>
    ⟨stepUnder_keeps_registerRanges hranges h, stepUnder_keeps_sequences hseq h⟩⟩

/-! ### `RES` within a command's reach (41_scaler_and_moves R112, R114) -/

theorem resWritable_of_zero {s : State} (h : s.res = 0) : ResWritable s := by
  rw [ResWritable, h]
  decide

theorem immRes_range (imm : BitVec 24) : -8388608 ≤ (immRes imm).toInt ∧ (immRes imm).toInt ≤ 8388607 := by
  have lo : -8388608 ≤ imm.toInt := BitVec.le_toInt imm
  have hi : imm.toInt < 8388608 := BitVec.toInt_lt
  rw [immRes, BitVec.toInt_signExtend_of_le (by decide)]
  omega

theorem scaleToRes_resWritable (s : State) : ResWritable (scaleToRes Config.cfg s) := by
  have le := scale_le s.raw
  rw [ResWritable, scaleToRes, setRes_res, toInt_toRes]
  omega

/-- What the decided configuration writes to `RES` is zero, a scaled code or a 24-bit immediate. -/
theorem effect_keeps_resWritable (i : Instr) {s : State} (h : ResWritable s) :
    ResWritable (effect Config.cfg i s) := by
  by_cases hw : .RES ∈ writtenItems i
  · obtain rfl | rfl | rfl | ⟨imm, rfl⟩ := (res_mem_writtenItems_iff i).mp hw
    · exact resWritable_of_zero rfl
    · exact scaleToRes_resWritable s
    · have converted : (effect Config.cfg .meas s).res = (scaleToRes Config.cfg (readAndInterpret Config.cfg s)).res :=
        writesOnly_convertRes Config.cfg _ .RES (by decide)
      rw [ResWritable, converted]
      exact scaleToRes_resWritable _
    · exact immRes_range imm
  · have same : (effect Config.cfg i s).res = s.res := effect_writesOnly Config.cfg i s .RES hw
    rwa [ResWritable, same]

theorem step_keeps_resWritable {s t : State} (hs : ResWritable s) (h : step s = .next t) : ResWritable t := by
  rw [step_eq_stepUnder] at h
  exact stepUnder_keeps (fun _ hs => hs) (fun _ _ => resWritable_of_zero rfl) (fun _ hs => hs)
    (fun i _ => effect_keeps_resWritable i) hs h

/-! ### Runs from reset (70_reset_and_hazards R231) -/

/-- What holds of every state of a run from reset (10_state R35, 20_memory R54, 41_scaler_and_moves R114). -/
def RunInvariant (s : State) : Prop :=
  RegisterRanges s ∧ ResWritable s ∧ sequencesOnly Config.cfg s.trace = true

theorem runInvariant_startRun (host : List HostAction) (bytes : List Byte) : RunInvariant (startRun host bytes) :=
  ⟨registerRanges_of_zero rfl rfl rfl, resWritable_of_zero rfl, by simp [startRun, State.reset, sequencesOnly]⟩

/-- Settles O53: the registers are zero and the trace is empty. -/
theorem resetHasTheRegisterRanges : Obligations.ResetHasTheRegisterRanges := runInvariant_startRun

theorem step_keeps_runInvariant {s t : State} (hs : RunInvariant s) (h : step s = .next t) : RunInvariant t := by
  obtain ⟨hranges, hres, hseq⟩ := hs
  have h' : stepUnder Config.cfg s = .next t := step_eq_stepUnder s ▸ h
  exact ⟨stepUnder_keeps_registerRanges hranges h', step_keeps_resWritable hres h, stepUnder_keeps_sequences hseq h'⟩

theorem run_succ (k : Nat) {s u : State} (h : step s = .next u) :
    Host.Core.run core (k + 1) s = Host.Core.run core k u := by
  have next : core.step s = .next u := h
  simp only [Host.Core.run, next]

/-- What every step keeps, every run keeps, and no run stops. -/
theorem run_keeps {P : State → Prop} (keeps : ∀ {s t}, P s → step s = .next t → P t) (k : Nat) {s : State} (hs : P s) :
    ∃ t : State, Host.Core.run core k s = .next t ∧ P t := by
  induction k generalizing s with
  | zero => exact ⟨s, rfl, hs⟩
  | succ k ih =>
    obtain ⟨u, hu⟩ := step_completes s
    obtain ⟨t, ht, hP⟩ := ih (keeps hs hu)
    exact ⟨t, (run_succ k hu).trans ht, hP⟩

/-- Settles O56: the invariant holds at the start of a run and every step keeps it. -/
theorem everyRunFromResetKeepsTheInvariants : Obligations.EveryRunFromResetKeepsTheInvariants :=
  fun host bytes k => run_keeps step_keeps_runInvariant k (runInvariant_startRun host bytes)

end Sys2Proof.Machine
end

section
/-!
PROOFS. The memory rules: which command a step runs and where (20_memory R58, R65), which command uses which port
(R67, 70_reset_and_hazards R231), the word an RTD read decodes (R57), and the trace as whole sequences (R54 to R56).
-/
namespace Sys2Proof.Machine

/-! ### Whole sequences on the trace (20_memory R54 to R56) -/

/-- Settles O54: a command adds whole sequences or nothing, and the other host actions keep the trace or empty it. -/
theorem stepKeepsTheTraceInWholeSequences : Obligations.StepKeepsTheTraceInWholeSequences := by
  intro s t hs h
  rw [step_eq_stepUnder] at h
  exact stepUnder_keeps_sequences hs h

/-! ### The host's ports (20_memory R67, 70_reset_and_hazards R231) -/

/-- From `s` to `t` nothing is answered to the host and nothing is taken from it (20_memory R67). -/
def KeepsHostPorts (s t : State) : Prop :=
  t.responses = s.responses ∧ t.pending = s.pending ∧ t.idx = s.idx

theorem KeepsHostPorts.trans {s t u : State} (h : KeepsHostPorts s t) (h' : KeepsHostPorts t u) :
    KeepsHostPorts s u := by
  obtain ⟨responses, pending, idx⟩ := h
  obtain ⟨responses', pending', idx'⟩ := h'
  exact ⟨responses'.trans responses, pending'.trans pending, idx'.trans idx⟩

theorem keepsHostPorts_interpret (c : Config.Cfg) (msb lsb : Byte) (s : State) :
    KeepsHostPorts s (interpret c msb lsb s) := by
  rw [interpret_spec]
  exact ⟨rfl, rfl, rfl⟩

theorem keepsHostPorts_readAndInterpret (c : Config.Cfg) (s : State) :
    KeepsHostPorts s (readAndInterpret c s) := by
  rw [readAndInterpret_spec]
  exact ⟨rfl, rfl, rfl⟩

theorem keepsHostPorts_iterate (c : Config.Cfg) (s : State) : KeepsHostPorts s (iterate c s) := by
  rw [iterate_frame]
  exact ⟨rfl, rfl, rfl⟩

theorem keepsHostPorts_convertRes (c : Config.Cfg) (s : State) : KeepsHostPorts s (convertRes c s) := by
  rw [convertRes_frame]
  exact ⟨rfl, rfl, rfl⟩

/-- Only a read answers the host, and no command takes from it (20_memory R67). -/
theorem effect_keepsHostPorts (c : Config.Cfg) {i : Instr} (hi : ∀ reg, i ≠ .rd reg) (s : State) :
    KeepsHostPorts s (effect c i s) := by
  cases i with
  | rd reg => exact absurd rfl (hi reg)
  | dec msb lsb => exact keepsHostPorts_interpret c msb lsb s
  | rdrtd => exact keepsHostPorts_readAndInterpret c s
  | nrit => exact keepsHostPorts_iterate c s
  | cvt => exact keepsHostPorts_convertRes c s
  | meas =>
    have scaled : KeepsHostPorts (readAndInterpret c s) (scaleToRes c (readAndInterpret c s)) := ⟨rfl, rfl, rfl⟩
    exact ((keepsHostPorts_readAndInterpret c s).trans scaled).trans (keepsHostPorts_convertRes c _)
  | init =>
    rw [effect, cfgWrite_spec]
    exact ⟨rfl, rfl, rfl⟩
  | nop | rst | setr | sett => exact ⟨rfl, rfl, rfl⟩
  | scale | bsel | est | eval | clmp =>
    simp [KeepsHostPorts, effect, scaleToRes, selectBranch, loadEstimate, evaluate, clampToTemp]

/-- What a command does at the host's ports: nothing, or it is a read of one of the eight registers and answers its
value (41_scaler_and_moves R116). -/
theorem effect_hostPorts (c : Config.Cfg) (i : Instr) (s : State) :
    KeepsHostPorts s (effect c i s) ∨
      ∃ reg v, i = .rd reg ∧ reg.toNat < 8 ∧ readReg reg s = some v ∧ effect c i s = respond v s := by
  by_cases hi : ∃ reg, i = .rd reg
  · obtain ⟨reg, rfl⟩ := hi
    by_cases hreg : reg.toNat < 8
    · obtain ⟨v, hv, he⟩ := readEffect_of_lt hreg s
      exact .inr ⟨reg, v, rfl, hreg, hv, he⟩
    · have illegal : effect c (.rd reg) s = raiseIllegalCommand s := readEffect_of_ge (Nat.not_lt.mp hreg) s
      rw [illegal]
      exact .inl ⟨rfl, rfl, rfl⟩
  · exact .inl (effect_keepsHostPorts c (fun reg h => hi ⟨reg, h⟩) s)

/-- Settles O14: the whole sequences a command adds to the trace, and its two ways with the host's ports. -/
theorem commandsOnlyAddToTraceAndResponses : Obligations.CommandsOnlyAddToTraceAndResponses := by
  intro i s t h
  rw [eq_effect_of_exec h]
  obtain ⟨es, htrace, -⟩ := effect_addsSequences Config.cfg i s
  refine ⟨⟨es, htrace⟩, ?_⟩
  obtain ⟨responses, pending, idx⟩ | ⟨reg, v, hi, hreg, hv, he⟩ := effect_hostPorts Config.cfg i s
  · exact ⟨.inl responses, pending, idx⟩
  · rw [he]
    exact ⟨.inr ⟨reg, v, hi, hreg, hv, rfl⟩, rfl, rfl⟩

/-! ### The device word (20_memory R57, 40_decoder R90) -/

/-- The device word as a number: the first byte is the most significant (20_memory R57). -/
theorem toNat_deviceWord (msb lsb : Byte) : (deviceWord msb lsb).toNat = 256 * msb.toNat + lsb.toNat := by
  have concat : (msb ++ lsb).toNat = msb.toNat <<< 8 + lsb.toNat := by
    rw [BitVec.toNat_append, Nat.shiftLeft_add_eq_or_of_lt lsb.isLt]
  rw [deviceWord, concat, Nat.shiftLeft_eq]
  omega

/-- `W[15:1]` is the word shifted right by one place (40_decoder R90). -/
theorem toNat_rawOf (w : DevWord) : (rawOf w).toNat = w.toNat / 2 := by
  have hw := w.isLt
  rw [rawOf, BitVec.extractLsb'_toNat, Nat.shiftRight_one]
  omega

/-- Bit 0 of a byte is its parity: the value of `FAULT` after a decode (40_decoder R90). -/
theorem toNat_getLsbD_zero (b : Byte) : (b.getLsbD 0).toNat = b.toNat % 2 := by
  rw [BitVec.getLsbD, Nat.toNat_testBit, Nat.pow_zero, Nat.div_one]

/-- The bytes of an RTD read are the second and the third of the environment's list (20_memory R53, R56). -/
theorem rtd_bytes_of_draws {s : State} {b0 msb lsb : Byte} {rest : List Byte}
    (h : s.draws = b0 :: msb :: lsb :: rest) : rtdMsb s = msb ∧ rtdLsb s = lsb := by
  simp [rtdMsb, rtdLsb, drawAt, h]

/-- Settles O25: the drawn bytes are the read's, and an interpretation takes `RAW` and `FAULT` from their word. -/
theorem readWordIsTheDrawnBytesMsbFirst : Obligations.ReadWordIsTheDrawnBytesMsbFirst := by
  intro s b0 msb lsb rest hdraws
  obtain ⟨hmsb, hlsb⟩ := rtd_bytes_of_draws hdraws
  refine ⟨_, exec_rdrtd s, ?_⟩
  rw [readAndInterpret_spec, hmsb, hlsb]
  exact ⟨by rw [toNat_rawOf, toNat_deviceWord], toNat_getLsbD_zero lsb⟩

/-! ### The command port (20_memory R65, 10_state R30) -/

theorem acceptCommand_of_pending {s : State} {a : HostAction} {rest : List HostAction} (hp : s.pending = a :: rest) :
    acceptCommand s = { s with pending := rest, idx := s.idx + 1 } := by
  simp [acceptCommand, advanceIdx, dropAction, hp]

theorem step_legal {s : State} {w : CmdWord} {rest : List HostAction} {i : Instr}
    (hp : s.pending = .command w :: rest) (hd : decode w = .legal i) : step s = exec i (acceptCommand s) :=
  takeAction_legal hp hd

/-- Settles O8: a step on a legal word, and the state in which the word is consumed. -/
theorem stepRunsTheDecodedCommand : Obligations.StepRunsTheDecodedCommand := by
  intro s w rest i hp hd _
  rw [step_legal hp hd, acceptCommand_of_pending hp]

end Sys2Proof.Machine
end

section
/-!
PROOFS. The encoding (30_encoding): the fields of a word as numbers, the decoder read as the arm of one command, a
row of the opcode map as a bound on the operand field, the two directions of the round trip, and the reserved words.
-/
namespace Sys2Proof

/-! ### The fields of a word as numbers (30_encoding R70, R71) -/

theorem toNat_opField (w : CmdWord) : (opField w).toNat = w.toNat / 16777216 := by
  have hw := w.isLt
  rw [opField, BitVec.extractLsb'_toNat, Nat.shiftRight_eq_div_pow]
  omega

theorem toNat_operandField (w : CmdWord) : (operandField w).toNat = w.toNat % 16777216 := by
  rw [operandField, BitVec.extractLsb'_toNat, Nat.shiftRight_zero]

theorem toNat_zeroFieldB (w : CmdWord) : (zeroFieldB w).toNat = (operandField w).toNat / 65536 := by
  rw [toNat_operandField, zeroFieldB, BitVec.extractLsb'_toNat, Nat.shiftRight_eq_div_pow]
  omega

theorem toNat_msbField (w : CmdWord) : (msbField w).toNat = (operandField w).toNat / 256 % 256 := by
  rw [toNat_operandField, msbField, BitVec.extractLsb'_toNat, Nat.shiftRight_eq_div_pow]
  omega

theorem toNat_lsbField (w : CmdWord) : (lsbField w).toNat = (operandField w).toNat % 256 := by
  rw [toNat_operandField, lsbField, BitVec.extractLsb'_toNat, Nat.shiftRight_zero]
  omega

theorem toNat_zeroFieldR (w : CmdWord) : (zeroFieldR w).toNat = (operandField w).toNat / 16 := by
  rw [toNat_operandField, zeroFieldR, BitVec.extractLsb'_toNat, Nat.shiftRight_eq_div_pow]
  omega

theorem toNat_regField (w : CmdWord) : (regField w).toNat = (operandField w).toNat % 16 := by
  rw [toNat_operandField, regField, BitVec.extractLsb'_toNat, Nat.shiftRight_zero]
  omega

/-- The opcode and the operand field are the whole word (30_encoding R70). -/
theorem word_ext_iff {w w' : CmdWord} : w = w' ↔ opField w = opField w' ∧ operandField w = operandField w' := by
  simp only [BitVec.toNat_eq, toNat_opField, toNat_operandField]
  omega

theorem opField_and (w w' : CmdWord) : opField (w &&& w') = opField w &&& opField w' := BitVec.extractLsb'_and

theorem operandField_and (w w' : CmdWord) : operandField (w &&& w') = operandField w &&& operandField w' :=
  BitVec.extractLsb'_and

theorem toNat_zero_append {m n : Nat} (x : BitVec n) : (0#m ++ x).toNat = x.toNat := by
  rw [BitVec.toNat_append, BitVec.toNat_ofNat, Nat.zero_mod, Nat.zero_shiftLeft, Nat.zero_or]

theorem toNat_operandOf_dec (msb lsb : Byte) : (operandOf (.dec msb lsb)).toNat = 256 * msb.toNat + lsb.toNat := by
  have append : operandOf (.dec msb lsb) = (0#8 ++ msb) ++ lsb := rfl
  rw [append, BitVec.toNat_append, toNat_zero_append, ← Nat.shiftLeft_add_eq_or_of_lt lsb.isLt, Nat.shiftLeft_eq]
  omega

theorem toNat_operandOf_rd (reg : BitVec 4) : (operandOf (.rd reg)).toNat = reg.toNat :=
  toNat_zero_append reg

/-! ### The decoder, one command at a time (30_encoding R73, R83) -/

/-- One command for each row of the opcode map, in the order of the opcodes. -/
def rowCommands : List Instr :=
  [.nop, .rst, .init, .rdrtd, .dec 0 0, .scale, .setr 0, .sett 0, .bsel, .est, .eval, .nrit, .clmp, .cvt, .meas, .rd 0]

theorem opcodeTable_eq_map : opcodeTable = rowCommands.map rowOf := rfl

theorem opcodes_rowCommands : rowCommands.map (fun i => (opcodeOf i).toNat) = List.range 16 := rfl

/-- The opcodes up to 0x0F are the opcodes of commands (30_encoding R73). -/
theorem exists_opcodeOf {w : CmdWord} (h : (opField w).toNat < 16) : ∃ i, opField w = opcodeOf i := by
  rw [← List.mem_range, ← opcodes_rowCommands, List.mem_map] at h
  obtain ⟨i, -, hi⟩ := h
  exact ⟨i, BitVec.eq_of_toNat_eq hi.symm⟩

/-- The arm of the decoder for the opcode of `i`; the operands of `i` are not looked at. -/
def decodeAs (i : Instr) (w : CmdWord) : Decoded :=
  match i with
  | .dec _ _ => decodeB w
  | .setr _ => .legal (.setr (operandField w))
  | .sett _ => .legal (.sett (operandField w))
  | .rd _ => decodeR w
  | .nop | .rst | .init | .rdrtd | .scale | .bsel | .est | .eval | .nrit | .clmp | .cvt | .meas => decodeZ i w

theorem decode_of_opField {i : Instr} {w : CmdWord} (h : opField w = opcodeOf i) : decode w = decodeAs i w := by
  rw [decode, h]
  cases i <;> rfl

theorem decode_of_opField_ge {w : CmdWord} (h : 16 ≤ (opField w).toNat) : decode w = .reserved .opcode := by
  obtain ⟨k, hk⟩ := Nat.exists_eq_add_of_le' h
  rw [decode, hk]
  rfl

/-- How many low bits of the operand field the encoding leaves free; the bits above them are zero in a legal word
(30_encoding R71, and R77 for `RD`). -/
def freeBits : Instr → Nat
  | .dec _ _ => 16
  | .setr _ | .sett _ => 24
  | .rd _ => 3
  | .nop | .rst | .init | .rdrtd | .scale | .bsel | .est | .eval | .nrit | .clmp | .cvt | .meas => 0

/-- The command of the row of `i` with its operands read from `w` (30_encoding R72). -/
def withOperandsOf (w : CmdWord) : Instr → Instr
  | .dec _ _ => .dec (msbField w) (lsbField w)
  | .setr _ => .setr (operandField w)
  | .sett _ => .sett (operandField w)
  | .rd _ => .rd (regField w)
  | i => i

theorem decodeAs_of_lt {i : Instr} {w : CmdWord} (h : (operandField w).toNat < 2 ^ freeBits i) :
    decodeAs i w = .legal (withOperandsOf w i) := by
  cases i with
  | dec msb lsb =>
    have hzero : zeroFieldB w = 0#8 := by
      rw [BitVec.toNat_eq, toNat_zeroFieldB]
      exact Nat.div_eq_of_lt h
    exact if_pos hzero
  | setr imm | sett imm => rfl
  | rd reg =>
    replace h : (operandField w).toNat < 8 := h
    have hzero : zeroFieldR w = 0#20 := by
      rw [BitVec.toNat_eq, toNat_zeroFieldR]
      exact Nat.div_eq_of_lt (by omega)
    have hreg : (regField w).toNat < 8 := by
      rw [toNat_regField]
      omega
    exact (if_pos hzero).trans (if_pos hreg)
  | _ => exact if_pos (BitVec.eq_of_toNat_eq (Nat.lt_one_iff.mp h))

theorem decodeZ_of_ne {i : Instr} {w : CmdWord} (h : (operandField w).toNat ≠ 0) :
    decodeZ i w = .reserved .operandBits :=
  if_neg fun hzero => h (congrArg BitVec.toNat hzero)

theorem decodeB_of_ne {w : CmdWord} (h : (operandField w).toNat / 65536 ≠ 0) : decodeB w = .reserved .operandBits :=
  if_neg fun hzero => h (by rw [← toNat_zeroFieldB, hzero]; rfl)

theorem decodeR_of_ne {w : CmdWord} (h : (operandField w).toNat / 16 ≠ 0) : decodeR w = .reserved .operandBits :=
  if_neg fun hzero => h (by rw [← toNat_zeroFieldR, hzero]; rfl)

theorem decodeR_of_ge {w : CmdWord} (h : (operandField w).toNat / 16 = 0) (hreg : 8 ≤ (operandField w).toNat) :
    decodeR w = .reserved .registerIndex := by
  have hzero : zeroFieldR w = 0#20 := by
    rw [BitVec.toNat_eq, toNat_zeroFieldR]
    exact h
  have hge : ¬ (regField w).toNat < 8 := by
    rw [toNat_regField]
    omega
  exact (if_pos hzero).trans (if_neg hge)

/-- An operand field that does not fit the free bits is reserved (30_encoding R76, R77). -/
theorem decodeAs_of_ge {i : Instr} {w : CmdWord} (h : 2 ^ freeBits i ≤ (operandField w).toNat) :
    ∃ why, decodeAs i w = .reserved why := by
  cases i with
  | dec msb lsb => exact ⟨_, decodeB_of_ne (Nat.div_pos (b := 65536) h (by decide)).ne'⟩
  | setr imm | sett imm => exact absurd (operandField w).isLt (Nat.not_lt.mpr h)
  | rd reg =>
    by_cases hzero : (operandField w).toNat / 16 = 0
    · exact ⟨_, decodeR_of_ge hzero h⟩
    · exact ⟨_, decodeR_of_ne hzero⟩
  | _ => exact ⟨_, decodeZ_of_ne (Nat.pos_iff_ne_zero.mp h)⟩

/-- The decoder, said once: which words it takes, for which command. -/
theorem decode_eq_legal_iff_fields {w : CmdWord} {i : Instr} :
    decode w = .legal i ↔
      ∃ j, opField w = opcodeOf j ∧ (operandField w).toNat < 2 ^ freeBits j ∧ withOperandsOf w j = i := by
  constructor
  · intro h
    by_cases hop : (opField w).toNat < 16
    · obtain ⟨j, hj⟩ := exists_opcodeOf hop
      rw [decode_of_opField hj] at h
      by_cases hfree : (operandField w).toNat < 2 ^ freeBits j
      · rw [decodeAs_of_lt hfree] at h
        exact ⟨j, hj, hfree, Decoded.legal.inj h⟩
      · obtain ⟨why, hwhy⟩ := decodeAs_of_ge (Nat.not_lt.mp hfree)
        rw [hwhy] at h
        cases h
    · rw [decode_of_opField_ge (Nat.not_lt.mp hop)] at h
      cases h
  · rintro ⟨j, hj, hfree, rfl⟩
    rw [decode_of_opField hj, decodeAs_of_lt hfree]

/-! ### The rows of the opcode map (30_encoding R73) -/

theorem and_allOnes_shiftLeft_eq_zero_iff {n : Nat} (x : BitVec n) (k : Nat) :
    x &&& BitVec.allOnes n <<< k = 0#n ↔ x.toNat < 2 ^ k := by
  have hle : x.toNat / 2 ^ k * 2 ^ k < 2 ^ n := (Nat.div_mul_le_self _ _).trans_lt x.isLt
  rw [← BitVec.shiftLeft_ushiftRight, BitVec.toNat_eq, BitVec.toNat_shiftLeft, BitVec.toNat_ushiftRight,
    Nat.shiftRight_eq_div_pow, Nat.shiftLeft_eq, Nat.mod_eq_of_lt hle]
  simp [Nat.div_eq_zero_iff]

/-- A row masks the whole opcode and the bits of the operand field that are not free, and asks for the opcode and
zeros. -/
theorem rowOf_fields (i : Instr) :
    opField (rowOf i).mask = BitVec.allOnes 8 ∧ opField (rowOf i).value = opcodeOf i ∧
    operandField (rowOf i).mask = BitVec.allOnes 24 <<< freeBits i ∧ operandField (rowOf i).value = 0#24 := by
  cases i <;> simp only [rowOf, opcodeOf, freeBits] <;> decide

theorem matches_rowOf_iff {i : Instr} {w : CmdWord} :
    (rowOf i).Matches w ↔ opField w = opcodeOf i ∧ (operandField w).toNat < 2 ^ freeBits i := by
  obtain ⟨opMask, opValue, operandMask, operandValue⟩ := rowOf_fields i
  rw [OpcodeRow.Matches, word_ext_iff, opField_and, operandField_and, opMask, opValue, operandMask, operandValue,
    BitVec.and_allOnes, and_allOnes_shiftLeft_eq_zero_iff]

theorem decode_of_matches {i : Instr} {w : CmdWord} (h : (rowOf i).Matches w) :
    decode w = .legal (withOperandsOf w i) := by
  obtain ⟨hop, hfree⟩ := matches_rowOf_iff.mp h
  exact decode_eq_legal_iff_fields.mpr ⟨i, hop, hfree, rfl⟩

/-- The word of a well-formed command matches its row. -/
theorem matches_encode : ∀ i, Laws.RowMatch.Statement i
  | .nop => Laws.RowMatch.nop
  | .rst => Laws.RowMatch.rst
  | .init => Laws.RowMatch.init
  | .rdrtd => Laws.RowMatch.rdrtd
  | .dec msb lsb => Laws.RowMatch.dec msb lsb
  | .scale => Laws.RowMatch.scale
  | .setr imm => Laws.RowMatch.setr imm
  | .sett imm => Laws.RowMatch.sett imm
  | .bsel => Laws.RowMatch.bsel
  | .est => Laws.RowMatch.est
  | .eval => Laws.RowMatch.eval
  | .nrit => Laws.RowMatch.nrit
  | .clmp => Laws.RowMatch.clmp
  | .cvt => Laws.RowMatch.cvt
  | .meas => Laws.RowMatch.meas
  | .rd reg => Laws.RowMatch.rd reg

theorem rowOf_mem_opcodeTable (i : Instr) : rowOf i ∈ opcodeTable := by
  cases i <;> simp [opcodeTable, rowOf]

/-! ### The round trip (30_encoding R71, R72) -/

/-- The operands of a command are read back from its word (30_encoding R72). -/
theorem withOperandsOf_encode (i : Instr) : withOperandsOf (encode i) i = i := by
  cases i with
  | dec msb lsb =>
    have hmsb : msbField (encode (.dec msb lsb)) = msb := by
      rw [BitVec.toNat_eq, toNat_msbField, operandField_encode, toNat_operandOf_dec]
      omega
    have hlsb : lsbField (encode (.dec msb lsb)) = lsb := by
      rw [BitVec.toNat_eq, toNat_lsbField, operandField_encode, toNat_operandOf_dec]
      omega
    rw [withOperandsOf, hmsb, hlsb]
  | setr imm | sett imm => rw [withOperandsOf, operandField_encode, operandOf]
  | rd reg =>
    have hreg : regField (encode (.rd reg)) = reg := by
      rw [BitVec.toNat_eq, toNat_regField, operandField_encode, toNat_operandOf_rd]
      omega
    rw [withOperandsOf, hreg]
  | _ => rfl

@[simp] theorem opcodeOf_withOperandsOf (w : CmdWord) (i : Instr) : opcodeOf (withOperandsOf w i) = opcodeOf i := by
  cases i <;> rfl

/-- An operand field that fits the free bits is the operand field of the command read from it (30_encoding R71). -/
theorem operandOf_withOperandsOf {i : Instr} {w : CmdWord} (h : (operandField w).toNat < 2 ^ freeBits i) :
    operandOf (withOperandsOf w i) = operandField w := by
  cases i with
  | dec msb lsb =>
    replace h : (operandField w).toNat < 65536 := h
    rw [BitVec.toNat_eq, withOperandsOf, toNat_operandOf_dec, toNat_msbField, toNat_lsbField]
    omega
  | setr imm | sett imm => rfl
  | rd reg =>
    replace h : (operandField w).toNat < 8 := h
    rw [BitVec.toNat_eq, withOperandsOf, toNat_operandOf_rd, toNat_regField]
    omega
  | _ => exact (BitVec.eq_of_toNat_eq (Nat.lt_one_iff.mp h)).symm

theorem wellFormed_withOperandsOf {i : Instr} {w : CmdWord} (h : (operandField w).toNat < 2 ^ freeBits i) :
    (withOperandsOf w i).WellFormed = true := by
  cases i with
  | rd reg =>
    have hreg : (regField w).toNat < 8 := (toNat_regField w).trans_le (Nat.mod_le _ _) |>.trans_lt h
    exact decide_eq_true hreg
  | _ => rfl

theorem decode_encode {i : Instr} (h : i.WellFormed = true) : decode (encode i) = .legal i :=
  (decode_of_matches (matches_encode i h)).trans (congrArg Decoded.legal (withOperandsOf_encode i))

theorem wellFormed_and_encode_of_decode {w : CmdWord} {i : Instr} (h : decode w = .legal i) :
    i.WellFormed = true ∧ encode i = w := by
  obtain ⟨j, hop, hfree, rfl⟩ := decode_eq_legal_iff_fields.mp h
  refine ⟨wellFormed_withOperandsOf hfree, word_ext_iff.mpr ⟨?_, ?_⟩⟩
  · rw [opField_encode, opcodeOf_withOperandsOf, hop]
  · rw [operandField_encode, operandOf_withOperandsOf hfree]

/-- Settles O1: the word matches the row of its command, and the operands are read back from it. -/
theorem decodeOfEncodeIsTheCommand : Obligations.DecodeOfEncodeIsTheCommand := fun _ => decode_encode

/-- Settles O2: opcode and operand field of the word are those of the command read from it. -/
theorem legalWordIsTheWordOfItsCommand : Obligations.LegalWordIsTheWordOfItsCommand :=
  fun _ _ => wellFormed_and_encode_of_decode

/-! ### Legal, reserved and the rows (30_encoding R73, R78) -/

theorem matches_of_decode {w : CmdWord} {i : Instr} (h : decode w = .legal i) : (rowOf i).Matches w := by
  obtain ⟨hwf, rfl⟩ := wellFormed_and_encode_of_decode h
  exact matches_encode i hwf

theorem legal_iff_exists_row (w : CmdWord) : (∃ i, decode w = .legal i) ↔ ∃ r ∈ opcodeTable, r.Matches w := by
  constructor
  · rintro ⟨i, h⟩
    exact ⟨rowOf i, rowOf_mem_opcodeTable i, matches_of_decode h⟩
  · rintro ⟨r, hr, h⟩
    rw [opcodeTable_eq_map, List.mem_map] at hr
    obtain ⟨i, -, rfl⟩ := hr
    exact ⟨_, decode_of_matches h⟩

theorem reserved_iff_not_legal (w : CmdWord) : (∃ why, decode w = .reserved why) ↔ ¬ ∃ i, decode w = .legal i := by
  cases decode w <;> simp

/-- Settles O3: a row that matches names the command, and the other words are the reserved ones. -/
theorem legalExactlyWhenARowMatches : Obligations.LegalExactlyWhenARowMatches := by
  intro w
  refine ⟨legal_iff_exists_row w, ?_⟩
  rw [reserved_iff_not_legal, legal_iff_exists_row]
  simp

/-- A command without operands is decoded exactly from the words of its row, of which there is one. -/
theorem decode_eq_legal_iff_matches (i : Instr) {w : CmdWord} (h : withOperandsOf w i = i) :
    decode w = .legal i ↔ (rowOf i).Matches w :=
  ⟨matches_of_decode, fun hm => (decode_of_matches hm).trans (congrArg Decoded.legal h)⟩

/-- Every row masks the whole opcode and prints it with zeros below, so it fixes its `match` from the word alone. -/
theorem value_eq_of_matches {r : OpcodeRow} (hr : r ∈ opcodeTable) {w : CmdWord} (h : r.Matches w) :
    r.value = w &&& 0xFF000000#32 := by
  have htop : ∀ r ∈ opcodeTable, r.mask &&& 0xFF000000#32 = 0xFF000000#32 ∧ r.value &&& 0xFF000000#32 = r.value := by
    decide
  obtain ⟨hmask, hvalue⟩ := htop r hr
  calc r.value = (w &&& r.mask) &&& 0xFF000000#32 := by rw [show w &&& r.mask = r.value from h, hvalue]
    _ = w &&& 0xFF000000#32 := by rw [BitVec.and_assoc, hmask]

theorem row_eq_of_value_eq : ∀ r ∈ opcodeTable, ∀ r' ∈ opcodeTable, r.value = r'.value → r = r' := by decide

/-- Settles O4: each printed pair is the row of its command, and rows that match one word have one `match`. -/
theorem opcodeMapReadsAsPrinted : Obligations.OpcodeMapReadsAsPrinted := by
  constructor
  · intro w
    exact
      ⟨decode_eq_legal_iff_matches .nop rfl, decode_eq_legal_iff_matches .rst rfl,
        decode_eq_legal_iff_matches .init rfl, decode_eq_legal_iff_matches .rdrtd rfl,
        ⟨fun ⟨_, _, h⟩ => matches_of_decode h, fun h => ⟨_, _, decode_of_matches (i := .dec 0 0) h⟩⟩,
        decode_eq_legal_iff_matches .scale rfl,
        ⟨fun ⟨_, h⟩ => matches_of_decode h, fun h => ⟨_, decode_of_matches (i := .setr 0) h⟩⟩,
        ⟨fun ⟨_, h⟩ => matches_of_decode h, fun h => ⟨_, decode_of_matches (i := .sett 0) h⟩⟩,
        decode_eq_legal_iff_matches .bsel rfl, decode_eq_legal_iff_matches .est rfl,
        decode_eq_legal_iff_matches .eval rfl, decode_eq_legal_iff_matches .nrit rfl,
        decode_eq_legal_iff_matches .clmp rfl, decode_eq_legal_iff_matches .cvt rfl,
        decode_eq_legal_iff_matches .meas rfl,
        ⟨fun ⟨_, h⟩ => matches_of_decode h, fun h => ⟨_, decode_of_matches (i := .rd 0) h⟩⟩⟩
  · intro w r hr r' hr' h h'
    exact row_eq_of_value_eq r hr r' hr' ((value_eq_of_matches hr h).trans (value_eq_of_matches hr' h').symm)

/-! ### The reserved words by their rules (30_encoding R75, R76, R77) -/

/-- The commands of Format Z, in the order of the opcodes (30_encoding R71). -/
def formatZ : List Instr := [.nop, .rst, .init, .rdrtd, .scale, .bsel, .est, .eval, .nrit, .clmp, .cvt, .meas]

theorem opcodes_formatZ :
    formatZ.map (fun i => (opcodeOf i).toNat) = [0, 1, 2, 3, 5, 8, 9, 10, 11, 12, 13, 14] := rfl

theorem decodeAs_formatZ {i : Instr} (h : i ∈ formatZ) (w : CmdWord) : decodeAs i w = decodeZ i w := by
  cases i with
  | dec | setr | sett | rd => simp [formatZ] at h
  | _ => rfl

theorem decode_of_toNat_opField {w : CmdWord} (i : Instr) (h : (opField w).toNat = (opcodeOf i).toNat) :
    decode w = decodeAs i w := decode_of_opField (BitVec.eq_of_toNat_eq h)

/-- Settles O5: the arm of the decoder that the opcode picks, and the test of that arm that fails. -/
theorem reservedWordsAreNamedByTheirRule : Obligations.ReservedWordsAreNamedByTheirRule := by
  intro w
  have immediate : BitVec.ofNat 24 (operandField w).toNat = operandField w := by simp
  rw [← toNat_opField, ← toNat_operandField, immediate]
  refine ⟨decode_of_opField_ge, fun hop hne => ?_, fun hop hne => ?_, fun hop hne => ?_, fun hop hzero hge => ?_,
    decode_of_toNat_opField (.setr 0), decode_of_toNat_opField (.sett 0)⟩
  · rw [← opcodes_formatZ, List.mem_map] at hop
    obtain ⟨i, hi, hop⟩ := hop
    rw [decode_of_toNat_opField i hop.symm, decodeAs_formatZ hi]
    exact decodeZ_of_ne hne
  · exact (decode_of_toNat_opField (.dec 0 0) hop).trans (decodeB_of_ne hne)
  · exact (decode_of_toNat_opField (.rd 0) hop).trans (decodeR_of_ne hne)
  · exact (decode_of_toNat_opField (.rd 0) hop).trans (decodeR_of_ge hzero hge)

end Sys2Proof

namespace Sys2Proof.Machine

/-! ### Printed words and lines (95_test_vectors, 30_encoding R81, R82) -/

/-- Settles O6: the words of commands decode by the round trip, the reserved ones are evaluated. -/
theorem printedWordsDecode : Obligations.PrintedWordsDecode :=
  ⟨decode_encode (i := .meas) rfl, decode_encode (i := .dec 0x52#8 0x75#8) rfl, decode_encode (i := .setr 13850#24) rfl,
    decode_encode (i := .sett 0xFFF602#24) rfl, decode_encode (i := .rd 7#4) rfl, by decide, by decide,
    by decide⟩

/-- Settles O7: the expansions by definition, the lines by running the assembler. -/
theorem assemblerLinesGiveThePrintedWords : Obligations.AssemblerLinesGiveThePrintedWords :=
  ⟨rfl, fun _ => rfl, rfl, by decide, by decide, by decide, by decide, by decide, by decide, by decide⟩

/-! ### What a reserved word does (30_encoding R79) -/

/-- Settles O9: the word is consumed, and `IllegalCommand` sets `ILL` alone. -/
theorem reservedWordSetsIllAndNothingElse : Obligations.ReservedWordSetsIllAndNothingElse := by
  intro s w rest why hp hd
  rw [step_reserved hp hd, acceptCommand_of_pending hp, raiseIllegalCommand, setIll]

end Sys2Proof.Machine
end

section
/-!
PROOFS. The Interpreter (40_decoder): the code and the fault flag of a device word as numbers, the word of `DEC` as a
legal word, and the effects of `INIT`, `DEC`, `RDRTD` and a timed-out `MEAS` from the laws of the shared operations.
-/
namespace Sys2Proof.Machine

/-! ### The code and the fault flag of two bytes (40_decoder R90) -/

theorem toNat_rawOf_deviceWord (msb lsb : Byte) :
    (rawOf (deviceWord msb lsb)).toNat = (256 * msb.toNat + lsb.toNat) / 2 := by
  rw [toNat_rawOf, toNat_deviceWord]

theorem rawOf_deviceWord (msb lsb : Byte) :
    rawOf (deviceWord msb lsb) = BitVec.ofNat 15 ((256 * msb.toNat + lsb.toNat) / 2) := by
  rw [← toNat_rawOf_deviceWord, BitVec.ofNat_toNat, BitVec.setWidth_eq]

/-- The fault bit of a byte is set when the byte is odd. -/
theorem getLsbD_zero_eq_true_iff (b : Byte) : b.getLsbD 0 = true ↔ b.toNat % 2 = 1 := by
  rw [← toNat_getLsbD_zero, Bool.toNat_eq_one]

/-- The fault bit of a byte is clear when the byte is even. -/
theorem getLsbD_zero_eq_false_iff (b : Byte) : b.getLsbD 0 = false ↔ b.toNat % 2 = 0 := by
  rw [← toNat_getLsbD_zero, Bool.toNat_eq_zero]

/-- Settles O21: the word as a number, halved for the code, and the parity of the second byte for the flag. -/
theorem deviceWordSplitsIntoCodeAndFault : Obligations.DeviceWordSplitsIntoCodeAndFault := by
  intro msb lsb
  refine ⟨toNat_deviceWord msb lsb, ?code, toNat_rawOf _, ?flag⟩
  case code =>
    rw [toNat_rawOf_deviceWord]
    omega
  case flag => rw [faultOf_deviceWord, getLsbD_zero_eq_true_iff]

/-! ### The configuration write (20_memory R55, 40_decoder R93) -/

/-- Settles O22: the word by the round trip, the effect as the configuration write with the decided bytes. -/
theorem initSendsTheConfigurationWrite : Obligations.InitSendsTheConfigurationWrite := by
  refine ⟨decode_encode (i := .init) rfl, fun s => ⟨_, exec_init s, ?_⟩⟩
  rw [cfgWrite_spec]
  rfl

/-! ### The interpretation of two given bytes (40_decoder R95) -/

/-- The word of `DEC` with its fields put in place by shifts (30_encoding R71, R73). -/
theorem encode_dec (msb lsb : Byte) :
    encode (.dec msb lsb) = 0x04000000#32 ||| (msb.setWidth 32 <<< 8) ||| lsb.setWidth 32 := by
  apply BitVec.eq_of_getLsbD_eq
  intro k hk
  rw [encode_getLsbD, operandOf_dec_getLsbD]
  interval_cases k <;> simp [opcodeOf]

/-- Settles O23: the word is that of `DEC`, the two values of the fault bit, and the zero field of Format B. -/
theorem decInterpretsTheTwoGivenBytes : Obligations.DecInterpretsTheTwoGivenBytes := by
  refine ⟨fun msb lsb => ?word, fun msb lsb s hlsb => ?noFault, fun msb lsb s hlsb => ⟨_, exec_dec msb lsb s, ?fault⟩,
    fun w hop hzero => ?reserved⟩
  case word =>
    rw [← encode_dec]
    exact decode_encode rfl
  case noFault =>
    have clear : faultOf (deviceWord msb lsb) = false := by rwa [faultOf_deviceWord, getLsbD_zero_eq_false_iff]
    rw [exec_dec, interpret_of_no_fault _ _ _ _ clear, rawOf_deviceWord]
  case fault =>
    have set : faultOf (deviceWord msb lsb) = true := by rwa [faultOf_deviceWord, getLsbD_zero_eq_true_iff]
    rw [interpret_of_fault _ _ _ _ set, rawOf_deviceWord]
    rfl
  case reserved =>
    rw [← toNat_opField] at hop
    rw [← toNat_operandField] at hzero
    exact (decode_of_toNat_opField (.dec 0 0) hop).trans (decodeB_of_ne hzero)

/-! ### The RTD read (40_decoder R94) -/

/-- A read whose second data byte has the fault bit clear: the read's five events and no clear sequence. -/
theorem readAndInterpret_of_no_fault (c : Config.Cfg) (s : State) (h : (rtdLsb s).getLsbD 0 = false) :
    readAndInterpret c s =
      { s with
        raw := rawOf (deviceWord (rtdMsb s) (rtdLsb s))
        fault := false
        trace := s.trace ++
          [.sel, .xfer c.RTD_RD_OP (drawAt s 0), .xfer c.DUMMY (rtdMsb s), .xfer c.DUMMY (rtdLsb s), .desel]
        sel := false
        draws := s.draws.drop 3
        xfers := s.xfers + 3 } := by
  rw [readAndInterpret_spec, h]
  simp

/-- A read whose second data byte has the fault bit set: the read's five events, then the configuration write's four. -/
theorem readAndInterpret_of_fault (c : Config.Cfg) (s : State) (h : (rtdLsb s).getLsbD 0 = true) :
    readAndInterpret c s =
      { s with
        raw := rawOf (deviceWord (rtdMsb s) (rtdLsb s))
        fault := true
        trace := s.trace ++
          [.sel, .xfer c.RTD_RD_OP (drawAt s 0), .xfer c.DUMMY (rtdMsb s), .xfer c.DUMMY (rtdLsb s), .desel,
            .sel, .xfer c.CFG_WR_OP (drawAt s 3), .xfer c.CFG_BYTE (drawAt s 4), .desel]
        sel := false
        draws := s.draws.drop 5
        xfers := s.xfers + 5 } := by
  rw [readAndInterpret_spec, h]
  simp

/-- Settles O24: the read with the fault bit clear and with it set. -/
theorem rdrtdReadsAndInterprets : Obligations.RdrtdReadsAndInterprets := by
  refine ⟨decode_encode (i := .rdrtd) rfl, ?noFault, ?fault⟩
  case noFault =>
    rintro s msb lsb rfl rfl hlsb
    refine ⟨_, exec_rdrtd s, ?_⟩
    rw [readAndInterpret_of_no_fault _ _ ((getLsbD_zero_eq_false_iff _).mpr hlsb), rawOf_deviceWord]
    rfl
  case fault =>
    rintro s msb lsb rfl rfl hlsb
    refine ⟨_, exec_rdrtd s, ?_⟩
    rw [readAndInterpret_of_fault _ _ ((getLsbD_zero_eq_true_iff _).mpr hlsb), rawOf_deviceWord]
    rfl

/-! ### A timeout on both data bytes (40_decoder R96, 60_exceptions R186) -/

/-- The three passes of the negative branch take resistance 0 to −242.1 °C. -/
theorem estimateAfter_zero : estimateAfter Config.cfg 0 Config.NNEG = -2421 := by decide

/-- Resistance 0 converts to the cold clamp, because its last estimate is below it. -/
theorem convert_zero : convert Config.cfg 0 = Config.TMIN :=
  calc convert Config.cfg 0 = finalTemp (estimateAfter Config.cfg 0 Config.NNEG) := rfl
    _ = finalTemp (-2421) := by rw [estimateAfter_zero]
    _ = Config.TMIN := by decide

/-- A timed-out read leaves the code 0, which scales to the resistance 0 (60_exceptions R186). -/
theorem scaleToRes_of_raw_zero (c : Config.Cfg) {s : State} (h : s.raw = 0) : scaleToRes c s = setRes 0 s := by
  simp [scaleToRes, h, scale, toRes]

/-- Settles O45: the read of two zero bytes, the scaling of code 0, and the conversion of resistance 0. -/
theorem timeoutReadsAsZeroAndEndsAtTheColdClamp : Obligations.TimeoutReadsAsZeroAndEndsAtTheColdClamp := by
  intro s hmsb hlsb
  refine ⟨_, exec_meas s, ?_⟩
  replace hmsb : rtdMsb s = 0x00#8 := hmsb
  replace hlsb : rtdLsb s = 0x00#8 := hlsb
  have clear : (rtdLsb s).getLsbD 0 = false := by rw [hlsb]; rfl
  have read := readAndInterpret_of_no_fault Config.cfg s clear
  have code : (readAndInterpret Config.cfg s).raw = 0 := by
    rw [read, hmsb, hlsb]
    rfl
  have ohms : (setRes 0 (readAndInterpret Config.cfg s)).res.toInt = 0 := rfl
  have cold : (toTemp (convert Config.cfg 0)).toInt = -2000 := by rw [convert_zero]; rfl
  rw [scaleToRes_of_raw_zero Config.cfg code, convertRes_spec Config.cfg ohms]
  refine ⟨code, congrArg State.fault read, rfl, cold, ?trace⟩
  rw [hmsb, hlsb] at read
  exact congrArg State.trace read

end Sys2Proof.Machine
end

section
/-!
PROOFS. The moves and the scaler (41_scaler_and_moves): the words of `SETR`, `SETT` and `RD` in shifted form, the values
of the extended operands and registers as numbers, and what a command can leave in `RES`.
-/
namespace Sys2Proof.Machine

/-! ### The words of the moves (30_encoding R70, R71) -/

/-- The word of a command with its opcode put in place by a shift (30_encoding R70). -/
theorem encode_eq_shiftLeft_or (i : Instr) :
    encode i = (opcodeOf i).setWidth 32 <<< 24 ||| (operandOf i).setWidth 32 := by
  rw [encode, BitVec.append_def, BitVec.shiftLeftZeroExtend_eq, BitVec.setWidth'_eq]

theorem encode_setr (imm : BitVec 24) : encode (.setr imm) = 0x06000000#32 ||| imm.setWidth 32 := by
  have opcode : (0x06#8).setWidth 32 <<< 24 = 0x06000000#32 := by decide
  rw [encode_eq_shiftLeft_or, opcodeOf, opcode, operandOf]

theorem encode_sett (imm : BitVec 24) : encode (.sett imm) = 0x07000000#32 ||| imm.setWidth 32 := by
  have opcode : (0x07#8).setWidth 32 <<< 24 = 0x07000000#32 := by decide
  rw [encode_eq_shiftLeft_or, opcodeOf, opcode, operandOf]

theorem encode_rd (reg : BitVec 4) : encode (.rd reg) = 0x0F000000#32 ||| reg.setWidth 32 := by
  have opcode : (0x0F#8).setWidth 32 <<< 24 = 0x0F000000#32 := by decide
  have operand : (operandOf (.rd reg)).setWidth 32 = reg.setWidth 32 := by
    rw [BitVec.toNat_eq, BitVec.toNat_setWidth, BitVec.toNat_setWidth, toNat_operandOf_rd]
  rw [encode_eq_shiftLeft_or, opcodeOf, opcode, operand]

/-- The word of a read of a reserved index is reserved for its index (30_encoding R77). -/
theorem decode_encode_rd_of_ge {reg : BitVec 4} (h : 8 ≤ reg.toNat) :
    decode (encode (.rd reg)) = .reserved .registerIndex := by
  have operand : (operandField (encode (.rd reg))).toNat = reg.toNat := by
    rw [operandField_encode, toNat_operandOf_rd]
  rw [decode_of_opField (opField_encode (.rd reg))]
  exact decodeR_of_ge (by omega) (by omega)

/-! ### `NOP` and `RST` (R110, R111) -/

/-- Settles O15: the word by the round trip, and the effect of `NOP`. -/
theorem nopLeavesTheStateAsItWas : Obligations.NopLeavesTheStateAsItWas :=
  ⟨decode_encode (i := .nop) rfl, exec_nop⟩

/-- Settles O16: the effect of `RST`, the one command that clears `ILL`, and the pin, which clears the same registers. -/
theorem rstZeroesTheRegistersAndKeepsTheTrace : Obligations.RstZeroesTheRegistersAndKeepsTheTrace :=
  ⟨decode_encode (i := .rst) rfl, exec_rst, fun _ _ _ => eq_rst_of_ill_cleared,
    fun s _ hp => ⟨_, _, exec_rst s, step_resetPin hp, rfl⟩⟩

/-! ### `SCALE` (R112, R113) -/

theorem scale_mono (c : Config.Cfg) {m n : Nat} (h : m ≤ n) : scale c m ≤ scale c n :=
  Nat.div_le_div_right (Nat.mul_le_mul_right c.RREF_C h)

theorem toInt_scaleToRes (s : State) :
    (scaleToRes Config.cfg s).res.toInt = (scale Config.cfg s.raw.toNat : Int) := toInt_toRes s.raw

/-- Settles O17: `RES` holds the scaled code as it is, which is within `scale_le` and grows with the code. -/
theorem scaleWritesTheScaledCode : Obligations.ScaleWritesTheScaledCode := by
  refine ⟨decode_encode (i := .scale) rfl, fun raw => ?product, fun s => ⟨_, exec_scale s, rfl, ?value⟩,
    fun s s' t t' h h' hraw => ?monotone⟩
  case product =>
    have hraw := raw.isLt
    omega
  case value =>
    have corner {raw : RawCode} (h : s.raw = raw) :
        (scaleToRes Config.cfg s).res.toInt = (scale Config.cfg raw.toNat : Int) := h ▸ toInt_scaleToRes s
    have le := scale_le s.raw
    have value := toInt_scaleToRes s
    exact ⟨value, by omega, by omega, corner, corner, corner, corner, corner⟩
  case monotone =>
    rw [eq_effect_of_exec h, eq_effect_of_exec h', effect, effect, toInt_scaleToRes, toInt_scaleToRes]
    exact Int.ofNat_le.mpr (scale_mono Config.cfg hraw)

/-! ### `SETR` and what a command can leave in `RES` (R112, R114) -/

theorem toInt_immRes (imm : BitVec 24) : (immRes imm).toInt = imm.toInt :=
  BitVec.toInt_signExtend_of_le (by decide)

/-- A command leaves `RES` as it was, or writes zero, a scaled code or a 24-bit immediate. -/
theorem effect_res_cases (c : Config.Cfg) (i : Instr) (s : State) :
    (effect c i s).res = s.res ∨ (effect c i s).res = 0 ∨
      (∃ raw : RawCode, (effect c i s).res = toRes (scale c raw.toNat)) ∨
      ∃ imm, (effect c i s).res = immRes imm := by
  by_cases hw : .RES ∈ writtenItems i
  · obtain rfl | rfl | rfl | ⟨imm, rfl⟩ := (res_mem_writtenItems_iff i).mp hw
    · exact .inr (.inl rfl)
    · exact .inr (.inr (.inl ⟨s.raw, rfl⟩))
    · have converted := writesOnly_convertRes c (scaleToRes c (readAndInterpret c s)) .RES (by decide)
      exact .inr (.inr (.inl ⟨(readAndInterpret c s).raw, converted⟩))
    · exact .inr (.inr (.inr ⟨imm, rfl⟩))
  · exact .inl (effect_writesOnly c i s .RES hw)

/-- A command that changes `RES` leaves it in the range of a 24-bit immediate (decision D30). -/
theorem resWritable_of_res_changed {i : Instr} {s t : State} (h : exec i s = .next t) (changed : t.res ≠ s.res) :
    ResWritable t := by
  obtain rfl := eq_effect_of_exec h
  obtain same | zero | ⟨raw, scaled⟩ | ⟨imm, immediate⟩ := effect_res_cases Config.cfg i s
  · exact absurd same changed
  · exact resWritable_of_zero zero
  · have le := scale_le raw
    rw [ResWritable, scaled, toInt_toRes]
    omega
  · rw [ResWritable, immediate]
    exact immRes_range imm

/-- Settles O18: the word by the round trip, the sign-extended operand, and the range of a changed `RES`. -/
theorem setrWritesTheSignExtendedImmediate : Obligations.SetrWritesTheSignExtendedImmediate :=
  ⟨fun imm => encode_setr imm ▸ decode_encode rfl, fun imm s => ⟨_, exec_setr imm s, rfl, toInt_immRes imm⟩,
    fun _ _ _ => resWritable_of_res_changed, by decide, decode_encode (i := .setr 10000#24) rfl⟩

/-- Settles O55: every command keeps the range, and the other host actions clear `RES` or leave it. -/
theorem stepKeepsResWritable : Obligations.StepKeepsResWritable :=
  fun _ _ => step_keeps_resWritable

/-! ### `SETT` (R115) -/

theorem toInt_immT (imm : BitVec 24) : (immT imm).toInt = imm.toInt :=
  BitVec.toInt_signExtend_of_le (by decide)

/-- Settles O19: the word by the round trip, and the sign-extended operand with no clamp on its way to `T`. -/
theorem settWritesTheSignExtendedImmediate : Obligations.SettWritesTheSignExtendedImmediate :=
  ⟨fun imm => encode_sett imm ▸ decode_encode rfl, fun imm s => ⟨_, exec_sett imm s, rfl, toInt_immT imm⟩,
    by decide⟩

/-! ### `RD` (R116) -/

/-- The numbers the eight reads answer: unsigned registers are zero-extended, signed ones sign-extended, and the wide
ones are answered as they are (10_state R21). -/
theorem readReg_values {reg : BitVec 4} {s : State} {v : Response} (h : readReg reg s = some v) :
    (reg = 0 → v.toNat = s.raw.toNat) ∧
    (reg = 1 → v.toInt = s.res.toInt) ∧
    (reg = 2 → v.toInt = s.temp.toInt) ∧
    (reg = 3 → v.toNat = 4 * s.ill.toNat + 2 * s.br.toNat + s.fault.toNat) ∧
    (reg = 4 → v = s.t) ∧
    (reg = 5 → v = s.f) ∧
    (reg = 6 → v = s.d) ∧
    (reg = 7 → v.toNat = s.it.toNat) := by
  refine ⟨?raw, ?res, ?temp, ?status, ?t, ?f, ?d, ?it⟩
  all_goals
    rintro rfl
    obtain rfl := Option.some.inj h
  case raw => exact BitVec.toNat_setWidth_of_le (by decide)
  case res => exact BitVec.toInt_signExtend_of_le (by decide)
  case temp => exact BitVec.toInt_signExtend_of_le (by decide)
  case status => exact (BitVec.toNat_setWidth_of_le (by decide)).trans (statusWord_toNat s)
  case t => rfl
  case f => rfl
  case d => rfl
  case it => exact BitVec.toNat_setWidth_of_le (by decide)

/-- Settles O20: a read below 8 responds with its value, one from 8 raises; the words by the round trip and by the
zero field and the index of Format R. -/
theorem rdRespondsWithTheExtendedRegister : Obligations.RdRespondsWithTheExtendedRegister := by
  refine ⟨fun reg s hreg => ?responds, fun reg s hreg => exec_rd_of_none ((readReg_eq_none_iff reg s).mpr hreg),
    fun reg hreg => encode_rd reg ▸ decode_encode (decide_eq_true hreg),
    fun reg hreg => encode_rd reg ▸ decode_encode_rd_of_ge hreg, fun w hop hzero => ?operandBits⟩
  case responds =>
    obtain ⟨v, hv, -⟩ := readEffect_of_lt hreg s
    exact ⟨v, exec_rd_of_some hv, readReg_values hv⟩
  case operandBits =>
    rw [← toNat_opField] at hop
    rw [← toNat_operandField] at hzero
    exact (decode_of_toNat_opField (.rd 0) hop).trans (decodeR_of_ne hzero)

end Sys2Proof.Machine
end

section
/-!
PROOFS. The evaluator (42_evaluator): its polynomials as one wrapped sum each, the same sums in 64-bit register
arithmetic (R137), and the estimates at which no wrap changes anything (R138).
-/
namespace Sys2Proof.Machine

/-! ### Integers into 64-bit registers: a ring homomorphism (42_evaluator R137) -/

theorem toWide_add (x y : Int) : toWide (x + y) = toWide x + toWide y := BitVec.ofInt_add x y

theorem toWide_mul (x y : Int) : toWide (x * y) = toWide x * toWide y := BitVec.ofInt_mul x y

theorem toWide_sub (x y : Int) : toWide (x - y) = toWide x - toWide y := by
  rw [sub_eq_add_neg x, BitVec.sub_eq_add_neg, toWide_add]
  exact congrArg (toWide x + ·) BitVec.ofInt_neg

theorem toWide_toInt_res (r : Resistance) : toWide r.toInt = r.signExtend 64 := rfl

/-- A wrapped integer is the signed value of the register that holds it. -/
theorem wrap64_eq_toInt_toWide (z : Int) : wrap64 z = (toWide z).toInt := (toInt_toWide z).symm

/-- The wrap of a sum takes in the wrap of its quotient (42_evaluator R137 (b), (c)). -/
theorem wrap64_add_tdiv (x a b : Int) : wrap64 (x + tdiv a b) = wrap64 (x + Int.tdiv a b) := Int.add_bmod_bmod

/-! ### The polynomials of the negative branch with one wrap outside the division (42_evaluator R134, R135) -/

theorem fNeg_eq_wrap64 (c : Config.Cfg) (t r : Int) :
    fNeg c t r = wrap64 (c.R0S + c.A1 * t + c.B2 * (t * t) - c.S * r
      + Int.tdiv (wrap64 (c.C15 * (t - 1000) * (t * t * t))) c.CDIV) :=
  wrap64_add_tdiv _ _ _

theorem dNeg_eq_wrap64 (c : Config.Cfg) (t : Int) :
    dNeg c t = wrap64 (10 * c.A1 + 20 * c.B2 * t
      + Int.tdiv (wrap64 (c.C15 * (4 * (t * t * t) - 3000 * (t * t)))) (c.CDIV / 10)) :=
  wrap64_add_tdiv _ _ _

/-- Settles O30: each polynomial is one wrapped sum, and the map into a register respects sums, differences and
products; the dividend of the negative branch is a register value by the same argument. -/
theorem wrappingEachOperationGivesTheSameResult : Obligations.WrappingEachOperationGivesTheSameResult := by
  intro c t r
  refine ⟨?fPos, ?dPos, ?fNeg, ?dNeg⟩
  case fPos =>
    simp only [fPos, toWide_wrap64, toWide_sub, toWide_add, toWide_mul, toWide_toInt, toWide_toInt_res]
    rfl
  case dPos =>
    simp only [dPos, toWide_wrap64, toWide_add, toWide_mul, toWide_toInt]
    rfl
  case fNeg =>
    simp only [fNeg_eq_wrap64, toWide_wrap64, wrap64_eq_toInt_toWide (_ * (_ * _ * _)), toWide_sub, toWide_add,
      toWide_mul, toWide_toInt, toWide_toInt_res]
    rfl
  case dNeg =>
    simp only [dNeg_eq_wrap64, toWide_wrap64, wrap64_eq_toInt_toWide (_ * (_ - _)), toWide_sub, toWide_add,
      toWide_mul, toWide_toInt]
    rfl

/-! ### The polynomials at the decided literals (00_scope R10) -/

theorem fPos_cfg (t r : Int) :
    fPos Config.cfg t r = wrap64 (1000000000000 + 390830000 * t - 5775 * (t * t) - 100000000 * r) :=
  congrArg wrap64 (by simp only [Config.cfg]; ring)

theorem dPos_cfg (t : Int) : dPos Config.cfg t = wrap64 (390830000 - 11550 * t) :=
  congrArg wrap64 (by simp only [Config.cfg]; ring)

theorem fNeg_cfg (t r : Int) :
    fNeg Config.cfg t r = wrap64 (1000000000000 + 390830000 * t - 5775 * (t * t) - 100000000 * r
      + Int.tdiv (wrap64 (-4183 * (t - 1000) * (t * t * t))) 10000000) :=
  (fNeg_eq_wrap64 Config.cfg t r).trans (congrArg wrap64 (by simp only [Config.cfg]; ring))

theorem dNeg_cfg (t : Int) :
    dNeg Config.cfg t = wrap64 (3908300000 - 115500 * t
      + Int.tdiv (wrap64 (-4183 * (4 * (t * t * t) - 3000 * (t * t)))) 1000000) := by
  have divisor : Config.cfg.CDIV / 10 = 1000000 := by decide
  rw [dNeg_eq_wrap64, divisor]
  exact congrArg wrap64 (by simp only [Config.cfg]; ring)

/-! ### What `EVAL` writes (42_evaluator R136) -/

/-- `EVAL` writes `F` and `D` at the estimate, and nothing else. -/
theorem evaluate_spec (c : Config.Cfg) (s : State) :
    evaluate c s =
      { s with
        f := toWide (residualAt c s.br s.t.toInt s.res.toInt)
        d := toWide (derivativeAt c s.br s.t.toInt) } := rfl

theorem evaluate_of_pos (c : Config.Cfg) {s : State} {t r : Int} (ht : s.t.toInt = t) (hr : s.res.toInt = r)
    (hbr : s.br = true) : evaluate c s = { s with f := toWide (fPos c t r), d := toWide (dPos c t) } := by
  rw [evaluate_spec, hbr, ht, hr]
  rfl

theorem evaluate_of_neg (c : Config.Cfg) {s : State} {t r : Int} (ht : s.t.toInt = t) (hr : s.res.toInt = r)
    (hbr : s.br = false) : evaluate c s = { s with f := toWide (fNeg c t r), d := toWide (dNeg c t) } := by
  rw [evaluate_spec, hbr, ht, hr]
  rfl

/-- At the ice point the residual is 0 in both branches (42_evaluator R136). -/
theorem residualAt_ice_point (b : Bool) : residualAt Config.cfg b 0 10000 = 0 := by
  cases b <;> decide

/-- Settles O28: the two branches at the literals, where the final wrap is the register's own; the two printed points
by evaluation. -/
theorem evalWritesResidualAndDerivative : Obligations.EvalWritesResidualAndDerivative := by
  refine ⟨decode_encode (i := .eval) rfl, fun s t r ht hr hbr => ?pos, fun s t r ht hr hbr => ?neg,
    fun s t hT hR h => ?icePoint, fun s t hbr hT hR h => ?printed⟩
  case pos =>
    rw [exec_eval, evaluate_of_pos Config.cfg ht hr hbr, fPos_cfg, dPos_cfg, toWide_wrap64, toWide_wrap64]
    rfl
  case neg =>
    rw [exec_eval, evaluate_of_neg Config.cfg ht hr hbr, fNeg_cfg, dNeg_cfg, toWide_wrap64, toWide_wrap64]
    rfl
  case icePoint =>
    rw [eq_effect_of_exec h, effect, evaluate_spec, hT, hR]
    exact congrArg toWide (residualAt_ice_point s.br)
  case printed =>
    have values : (toWide (fNeg Config.cfg (-2000) 1852)).toInt = 800000 ∧
        (toWide (dNeg Config.cfg (-2000))).toInt = 4323352000 := by decide
    rw [eq_effect_of_exec h, effect, evaluate_of_neg Config.cfg hT (congrArg BitVec.toInt hR) hbr]
    exact values

/-! ### `EVAL` before `NRIT` (42_evaluator R136, 43_rootfinder R157) -/

/-- `EVAL` reads nothing that it writes. -/
theorem evaluate_evaluate (c : Config.Cfg) (s : State) : evaluate c (evaluate c s) = evaluate c s := rfl

/-- Settles O35: below its bound `NRIT` begins with an `EVAL` of its own, and a second one does nothing more. -/
theorem evalDoesNotDisturbTheNextNrit : Obligations.EvalDoesNotDisturbTheNextNrit := by
  intro s e below he
  have bound : s.it.toNat < iterBound s.br := below
  have once := iterate_below_bound Config.cfg s bound
  have again := iterate_below_bound Config.cfg (evaluate Config.cfg s) bound
  rw [eq_effect_of_exec he, effect, exec_nrit, exec_nrit, again, once, evaluate_evaluate]

/-! ### Where no wrap changes anything (42_evaluator R138) -/

theorem abs_mul_le {a b A B : Int} (ha : |a| ≤ A) (hb : |b| ≤ B) : |a * b| ≤ A * B :=
  abs_mul a b ▸ mul_le_mul ha hb (abs_nonneg b) ((abs_nonneg a).trans ha)

theorem abs_tdiv_le {a : Int} {k n : Nat} (h : |a| ≤ k * n) : |Int.tdiv a k| ≤ n := by
  rw [Int.abs_eq_natAbs] at h ⊢
  rw [Int.natAbs_tdiv]
  exact Int.ofNat_le.mpr (Nat.div_le_of_le_mul (by exact_mod_cast h))

theorem wrap64_of_abs_le {z : Int} (h : |z| ≤ 9223372036854775807) : wrap64 z = z := by
  obtain ⟨lo, hi⟩ := abs_le.mp h
  exact wrap64_of_range (by omega) (by omega)

section
variable {t : Int} (ht : |t| ≤ 6600)
include ht

theorem abs_square_le : |t * t| ≤ 43560000 := abs_mul_le ht ht

theorem abs_cube_le : |t * t * t| ≤ 287496000000 := abs_mul_le (abs_square_le ht) ht

/-- The dividend of the quartic term: within one part in a hundred of 2^63 (42_evaluator R138). -/
theorem abs_quartic_le : |-4183 * (t - 1000) * (t * t * t)| ≤ 9139727836800000000 := by
  have factor : |t - 1000| ≤ 7600 := by
    obtain ⟨lo, hi⟩ := abs_le.mp ht
    exact abs_le.mpr ⟨by omega, by omega⟩
  exact abs_mul_le (abs_mul_le (a := -4183) (A := 4183) (by decide) factor) (abs_cube_le ht)

theorem abs_quarticDerivative_le : |-4183 * (4 * (t * t * t) - 3000 * (t * t))| ≤ 5357017512000000 := by
  obtain ⟨lo2, hi2⟩ := abs_le.mp (abs_square_le ht)
  obtain ⟨lo3, hi3⟩ := abs_le.mp (abs_cube_le ht)
  exact abs_le.mpr ⟨by omega, by omega⟩

theorem residualAt_cfg_of_abs_le {r : Int} (hr : |r| ≤ 2147483648) (b : Bool) :
    residualAt Config.cfg b t r = exactResidual b t r := by
  have quartic := abs_tdiv_le (k := 10000000) (n := 913972783680) (abs_quartic_le ht)
  obtain ⟨tLo, tHi⟩ := abs_le.mp ht
  obtain ⟨rLo, rHi⟩ := abs_le.mp hr
  obtain ⟨sqLo, sqHi⟩ := abs_le.mp (abs_square_le ht)
  obtain ⟨qLo, qHi⟩ := abs_le.mp quartic
  push_cast at qLo qHi
  cases b with
  | true =>
    refine (fPos_cfg t r).trans ((wrap64_of_range ?_ ?_).trans (add_zero _).symm) <;> omega
  | false =>
    refine (fNeg_cfg t r).trans ?_
    rw [wrap64_of_abs_le ((abs_quartic_le ht).trans (by decide))]
    refine wrap64_of_range ?_ ?_ <;> omega

theorem derivativeAt_cfg_of_abs_le (b : Bool) : derivativeAt Config.cfg b t = exactDerivative b t := by
  have quartic := abs_tdiv_le (k := 1000000) (n := 5357017512) (abs_quarticDerivative_le ht)
  obtain ⟨tLo, tHi⟩ := abs_le.mp ht
  obtain ⟨qLo, qHi⟩ := abs_le.mp quartic
  push_cast at qLo qHi
  cases b with
  | true =>
    refine (dPos_cfg t).trans (wrap64_of_range ?_ ?_) <;> omega
  | false =>
    refine (dNeg_cfg t).trans ?_
    rw [wrap64_of_abs_le ((abs_quarticDerivative_le ht).trans (by decide))]
    refine wrap64_of_range ?_ ?_ <;> omega

end

theorem abs_toInt_res_le (r : Resistance) : |r.toInt| ≤ 2147483648 :=
  abs_le.mpr ⟨BitVec.le_toInt r, (BitVec.toInt_lt (x := r)).le⟩

/-- Settles O29: the sums keep below 2^63 in size, so what `EVAL` leaves are the exact integers. -/
theorem evalIsExactUpTo6600 : Obligations.EvalIsExactUpTo6600 := by
  intro s lo hi
  have ht : |s.t.toInt| ≤ 6600 := abs_le.mpr ⟨lo, hi⟩
  refine ⟨_, exec_eval s, ?residual, ?derivative⟩
  case residual =>
    calc (evaluate Config.cfg s).f.toInt
      _ = wrap64 (residualAt Config.cfg s.br s.t.toInt s.res.toInt) := toInt_toWide _
      _ = residualAt Config.cfg s.br s.t.toInt s.res.toInt := wrap64_residualAt _ _ _ _
      _ = exactResidual s.br s.t.toInt s.res.toInt := residualAt_cfg_of_abs_le ht (abs_toInt_res_le s.res) s.br
  case derivative =>
    calc (evaluate Config.cfg s).d.toInt
      _ = wrap64 (derivativeAt Config.cfg s.br s.t.toInt) := toInt_toWide _
      _ = derivativeAt Config.cfg s.br s.t.toInt := wrap64_derivativeAt _ _ _
      _ = exactDerivative s.br s.t.toInt := derivativeAt_cfg_of_abs_le ht s.br

/-! ### The ranges of the derivatives (42_evaluator R133, R135) -/

/-- Below 2^48 in size no wrap changes the positive derivative (43_rootfinder R161). -/
theorem dPos_cfg_of_range {t : Int} (lo : -281474976710656 < t) (hi : t < 281474976710656) :
    dPos Config.cfg t = 390830000 - 11550 * t :=
  (dPos_cfg t).trans (wrap64_of_range (by omega) (by omega))

/-- The quartic term only adds to the negative derivative at and below 0. -/
theorem quarticDerivative_nonneg {t : Int} (ht : t ≤ 0) : 0 ≤ -4183 * (4 * (t * t * t) - 3000 * (t * t)) := by
  have square : 0 ≤ t * t := mul_self_nonneg t
  have cube : t * t * t ≤ 0 := mul_nonpos_of_nonneg_of_nonpos square ht
  omega

/-- Settles O31: the positive derivative is a line whose zero is no integer; the negative one is a line plus a term
that is not negative. -/
theorem derivativesStayAwayFromZero : Obligations.DerivativesStayAwayFromZero := by
  refine ⟨fun t lo hi => ?posRange, fun t lo hi => ?posNonzero, fun t lo hi => ?neg⟩
  case posRange =>
    rw [dPos_cfg_of_range (by omega) (by omega)]
    omega
  case posNonzero =>
    rw [dPos_cfg_of_range lo hi]
    omega
  case neg =>
    have unwrapped : dNeg Config.cfg t = exactDerivative false t :=
      derivativeAt_cfg_of_abs_le (abs_le.mpr ⟨lo, by omega⟩) false
    have quartic := Int.tdiv_nonneg (quarticDerivative_nonneg hi) (b := 1000000) (by decide)
    rw [unwrapped]
    simp only [exactDerivative, Bool.false_eq_true, if_false]
    omega

end Sys2Proof.Machine
end

section
/-!
PROOFS. The root-finder (43_rootfinder): branch, initial estimate, one bounded iteration, and the final clamp; the
iterations counted from an estimate.
-/
namespace Sys2Proof.Machine

/-! ### The branch (R150, R151) -/

theorem branchOf_eq_true_iff (r : Int) : branchOf r = true ↔ 10000 ≤ r := decide_eq_true_iff

theorem branchOf_eq_false_iff (r : Int) : branchOf r = false ↔ r < 10000 :=
  decide_eq_false_iff_not.trans Int.not_le

theorem branchOf_mono {r r' : Int} (h : r ≤ r') (hr : branchOf r = true) : branchOf r' = true :=
  (branchOf_eq_true_iff r').mpr (((branchOf_eq_true_iff r).mp hr).trans h)

/-- Settles O32: the word by the round trip, the effect of `BSEL`, and the test on each side of its threshold. -/
theorem bselTestsRESAgainstTheIcePoint : Obligations.BselTestsRESAgainstTheIcePoint := by
  refine ⟨decode_encode (i := .bsel) rfl, exec_bsel, fun _ _ => branchOf_mono, fun s t h => ?corners⟩
  have branch : t.br = branchOf s.res.toInt := congrArg State.br (eq_effect_of_exec h)
  rw [branch, branchOf_eq_true_iff, branchOf_eq_false_iff]
  omega

/-! ### The initial estimate (R152, R153) -/

/-- The product stays far inside the 64-bit range, and the quotient is no larger: no wrap changes anything (R152). -/
theorem linearEstimate_cfg {r : Int} (hr : |r| ≤ 2147483648) :
    linearEstimate Config.cfg r = Int.tdiv ((r - 10000) * 100000000) 390830000 := by
  obtain ⟨lo, hi⟩ := abs_le.mp hr
  have product : wrap64 ((r - 10000) * 100000000) = (r - 10000) * 100000000 :=
    wrap64_of_range (by omega) (by omega)
  calc linearEstimate Config.cfg r
    _ = tdiv (wrap64 ((r - 10000) * 100000000)) 390830000 := rfl
    _ = tdiv ((r - 10000) * 100000000) 390830000 := by rw [product]
    _ = Int.tdiv ((r - 10000) * 100000000) 390830000 :=
      tdiv_of_range (by omega) (by omega) (by decide) (by omega)

/-- The estimate is minus the rounded quotient of the deficit (R152). -/
theorem linearQuotient_eq_neg_deficit (r : Int) :
    Int.tdiv ((r - 10000) * 100000000) 390830000 = -Int.tdiv ((10000 - r) * 100000000) 390830000 := by
  rw [← Int.neg_tdiv, ← Int.neg_mul, Int.neg_sub]

/-- Below the ice point the positive branch's clamp raises the estimate to 0 (R152). -/
theorem estimate_pos_of_lt {r : Int} (hr : |r| ≤ 2147483648) (h : r < 10000) : estimate Config.cfg true r = 0 := by
  have deficit : 0 ≤ Int.tdiv ((10000 - r) * 100000000) 390830000 := Int.tdiv_nonneg (by omega) (by decide)
  have clamped : estimate Config.cfg true r = clamp (linearEstimate Config.cfg r) 0 8500 := rfl
  rw [clamped, linearEstimate_cfg hr, linearQuotient_eq_neg_deficit]
  unfold clamp
  split_ifs <;> omega

theorem toInt_loadEstimate_t (c : Config.Cfg) (s : State) :
    (loadEstimate c s).t.toInt = estimate c s.br s.res.toInt := by
  simp [loadEstimate]

/-- The printed estimates, by evaluation (R153). -/
theorem estimate_cfg_printed :
    estimate Config.cfg true 10000 = 0 ∧ estimate Config.cfg true 50000 = 8500 ∧
    estimate Config.cfg false 0 = -2558 ∧ estimate Config.cfg false 9999 = 0 ∧
    estimate Config.cfg true 13850 = 985 := by decide

/-- An iteration never clears `IT`: it raises it, or leaves it at the bound (R157). -/
theorem iterate_it_ne_zero (c : Config.Cfg) {s : State} (h : s.it ≠ 0) : (iterate c s).it ≠ 0 := by
  by_cases below : s.it.toNat < iterBound s.br
  · intro cleared
    have raised := (iterate_it c s below).1
    rw [cleared] at raised
    exact Nat.not_lt_zero _ raised
  · rwa [iterate_of_bound c s (Nat.not_lt.mp below)]

/-- A conversion leaves `IT` at its branch's bound, which is not 0 (44_converter R171). -/
theorem convertRes_it_ne_zero (c : Config.Cfg) (s : State) : (convertRes c s).it ≠ 0 := by
  intro cleared
  have bound := (convertRes_results c (s := s) rfl).1
  rw [cleared] at bound
  exact absurd (bound ▸ (iterBound_le _).1) (by decide)

/-- The commands that can clear `IT` are two of the five in its column of the access table (R153, 10_state R33). -/
theorem est_or_rst_of_it_cleared {i : Instr} {s t : State} (h : exec i s = .next t) (hs : s.it ≠ 0) (ht : t.it = 0) :
    i = .est ∨ i = .rst := by
  have changed : ¬ sameItem .IT s t := fun same => hs (same.symm.trans ht)
  obtain rfl := eq_effect_of_exec h
  obtain rfl | rfl | rfl | rfl | rfl := (it_mem_writtenItems_iff i).mp (mem_writtenItems_of_changed h changed)
  case inl => exact .inl rfl
  case inr.inl => exact absurd ht (iterate_it_ne_zero _ hs)
  case inr.inr.inl => exact absurd ht (convertRes_it_ne_zero _ _)
  case inr.inr.inr.inl => exact absurd ht (convertRes_it_ne_zero _ _)
  case inr.inr.inr.inr => exact .inr rfl

/-- Settles O33: `T` holds the estimate, whose product and quotient do not wrap; below the ice point the clamp acts; of
the commands that write `IT` only two can clear it. -/
theorem estLoadsTheLinearEstimate : Obligations.EstLoadsTheLinearEstimate := by
  refine ⟨decode_encode (i := .est) rfl, ?estimate, fun s t h => ?corners, fun r lo hi => ?product,
    linearQuotient_eq_neg_deficit, fun _ _ _ => est_or_rst_of_it_cleared⟩
  case estimate =>
    rintro s e rfl
    refine ⟨_, exec_est s, rfl, ?_⟩
    rw [toInt_loadEstimate_t, ← linearEstimate_cfg (abs_toInt_res_le s.res)]
    rfl
  case corners =>
    have value : t.t.toInt = estimate Config.cfg s.br s.res.toInt := by
      rw [eq_effect_of_exec h, effect, toInt_loadEstimate_t]
    have atPoint {b : Bool} {r : Int} (hb : s.br = b) (hr : s.res.toInt = r) :
        t.t.toInt = estimate Config.cfg b r := by rw [value, hb, hr]
    obtain ⟨ice, hot, zero, under, sample⟩ := estimate_cfg_printed
    exact ⟨fun hb hr => (atPoint hb hr).trans ice, fun hb hr => (atPoint hb hr).trans hot,
      fun hb hr => (atPoint hb rfl).trans (estimate_pos_of_lt (abs_toInt_res_le s.res) hr),
      fun hb hr => (atPoint hb hr).trans zero, fun hb hr => (atPoint hb hr).trans under,
      fun hb hr => (atPoint hb hr).trans sample⟩
  case product => omega

/-! ### One iteration (R154 to R157) -/

theorem evaluate_d_eq_zero_iff (c : Config.Cfg) (s : State) :
    (evaluate c s).d = 0#64 ↔ derivativeAt c s.br s.t.toInt = 0 := by
  simp [evaluate, toWide_eq_zero_iff]

/-- The two estimates of R155 and R156; the register's own wrap makes that of the last difference superfluous. -/
theorem toWide_stepEstimate (b : Bool) (t f d : Int) :
    toWide (stepEstimate b t f d) =
      toWide (if b then clamp (wrap64 (t - tdiv f d)) 0 8500 else t - tdiv (wrap64 (10 * f)) d) := by
  cases b with
  | true => rfl
  | false => exact toWide_wrap64 _

section
variable {c : Config.Cfg} {s : State} {f d : Int} (below : s.it.toNat < iterBound s.br)
  (hf : residualAt c s.br s.t.toInt s.res.toInt = f) (hd : derivativeAt c s.br s.t.toInt = d)
include below hf hd

/-- A zero derivative keeps `T`; it stops the positive branch and counts as one pass of the negative one (R157). -/
theorem iterate_of_derivative_zero (hz : d = 0) :
    iterate c s = { s with f := toWide f, d := 0, it := if s.br then 4 else s.it + 1 } := by
  subst hf hd
  have dzero := (evaluate_d_eq_zero_iff c s).mpr hz
  have kept : nextEstimate (evaluate c s) = s.t := if_pos dzero
  have count : nextCount (evaluate c s) = if s.br then 4 else s.it + 1 :=
    if_congr (and_iff_right dzero) rfl rfl
  rw [iterate_spec c s below, kept, count, hz]
  rfl

/-- Otherwise `T` takes one step of its branch, and `IT` counts it (R157). -/
theorem iterate_of_derivative_ne_zero (hz : d ≠ 0) :
    iterate c s =
      { s with f := toWide f, d := toWide d, t := toWide (stepEstimate s.br s.t.toInt f d), it := s.it + 1 } := by
  subst hf hd
  have dnonzero := mt (evaluate_d_eq_zero_iff c s).mp hz
  have stepped : nextEstimate (evaluate c s) = toWide (stepEstimate s.br s.t.toInt
      (residualAt c s.br s.t.toInt s.res.toInt) (derivativeAt c s.br s.t.toInt)) := by
    rw [nextEstimate, if_neg dnonzero]
    simp [evaluate]
  have count : nextCount (evaluate c s) = s.it + 1 := if_neg fun stop => dnonzero stop.1
  rw [iterate_spec c s below, stepped, count]

end

/-- The printed iteration at 138.50 ohm from the estimate 98.5 °C, by evaluation (R157). -/
theorem iteration_printed :
    residualAt Config.cfg true 985 13850 = -5635499375 ∧ derivativeAt Config.cfg true 985 = 379453250 ∧
    stepEstimate true 985 (-5635499375) 379453250 = 999 := by decide

/-- Settles O34: the bound, the two arms below it, the `EVAL` that an iteration begins with, and the printed example as
a case of the arm with a derivative that is not zero. -/
theorem nritRunsOneBoundedIteration : Obligations.NritRunsOneBoundedIteration := by
  refine ⟨decode_encode (i := .nrit) rfl, fun s bound => ?bound, fun s f d below hf hd hz => ?zero,
    fun s f d below hf hd hz => ?step, fun s e t below he ht => ?eval, fun s t hbr hres hT hit h => ?printed⟩
  case bound => exact congrArg Host.Outcome.next (iterate_of_bound Config.cfg s bound)
  case zero => exact congrArg Host.Outcome.next (iterate_of_derivative_zero below hf hd hz)
  case step =>
    rw [exec_nrit, iterate_of_derivative_ne_zero below hf hd hz, toWide_stepEstimate]
    rfl
  case eval =>
    rw [eq_effect_of_exec he, eq_effect_of_exec ht, effect, effect, iterate_spec Config.cfg s below]
    exact ⟨rfl, rfl⟩
  case printed =>
    obtain ⟨residual, derivative, newEstimate⟩ := iteration_printed
    have below : s.it.toNat < iterBound s.br := by rw [hit, hbr]; decide
    have hf : residualAt Config.cfg s.br s.t.toInt s.res.toInt = -5635499375 := by rw [hbr, hT, hres]; exact residual
    have hd : derivativeAt Config.cfg s.br s.t.toInt = 379453250 := by rw [hbr, hT]; exact derivative
    have moved : stepEstimate s.br s.t.toInt (-5635499375) 379453250 = 999 := by rw [hbr, hT]; exact newEstimate
    rw [eq_effect_of_exec h, effect, iterate_of_derivative_ne_zero below hf hd (by decide), moved, hit]
    exact ⟨rfl, rfl, rfl, rfl⟩

/-! ### A zero derivative in the passes of a conversion (R160) -/

/-- One pass of R170 with the update skipped on a zero derivative, in either branch. -/
def skippingStep (c : Config.Cfg) (b : Bool) (r u : Int) : Int :=
  if derivativeAt c b u = 0 then u else stepEstimate b u (residualAt c b u r) (derivativeAt c b u)

/-- An estimate whose derivative is zero is a fixed point of the skipping step, so leaving the loop there and going on
come to the same; elsewhere both take the same step. -/
theorem convertPasses_eq_iterate_skippingStep (c : Config.Cfg) (b : Bool) (r : Int) (n : Nat) (t : Int) :
    convertPasses c b r n t = (skippingStep c b r)^[n] t := by
  induction n generalizing t with
  | zero => rfl
  | succ n ih =>
    by_cases hz : derivativeAt c b t = 0
    · have fixed : skippingStep c b r t = t := if_pos hz
      rw [convertPasses_of_zero c b r hz, Function.iterate_fixed fixed]
    · have step : skippingStep c b r t = stepEstimate b t (residualAt c b t r) (derivativeAt c b t) := if_neg hz
      rw [convertPasses_of_nonzero c b r hz, Function.iterate_succ_apply, step, ih]

/-- Settles O36: the statement's step is `skippingStep`. -/
theorem stoppingAndSkippingAgree : Obligations.StoppingAndSkippingAgree :=
  fun c b r t n => convertPasses_eq_iterate_skippingStep c b r n t

/-! ### The iterations after an estimate (R159) -/

theorem runInstrs_replicate_nrit (n : Nat) (s : State) :
    runInstrs (List.replicate n .nrit) s = .next ((iterate Config.cfg)^[n] s) := by
  induction n generalizing s with
  | zero => rfl
  | succ n ih => exact ih (iterate Config.cfg s)

/-- The loop of a conversion is the same number of iterations: those beyond the bound do nothing (R157). -/
theorem iterateWhile_eq_iterate (c : Config.Cfg) (n : Nat) (s : State) : iterateWhile c n s = (iterate c)^[n] s := by
  induction n generalizing s with
  | zero => rfl
  | succ n ih =>
    by_cases below : s.it.toNat < iterBound s.br
    · rw [iterateWhile, if_pos below, ih, Function.iterate_succ_apply]
    · have bound := Nat.not_lt.mp below
      rw [iterateWhile_of_bound c _ bound, Function.iterate_fixed (iterate_of_bound c s bound)]

/-- Four iterations from `IT = 0` reach the bound of the branch, which no iteration changes (R159). -/
theorem iterate_four_reaches_bound (c : Config.Cfg) {s : State} (h : s.it = 0) :
    ((iterate c)^[4] s).it.toNat = iterBound s.br ∧ ((iterate c)^[4] s).br = s.br := by
  have start : s.it.toNat = 0 := by rw [h]; rfl
  have bound := iterBound_le s.br
  rw [← iterateWhile_eq_iterate]
  exact ⟨(iterateWhile_spec c 4 s (by omega) (by omega)).1, by rw [iterateWhile_frame]⟩

/-- Settles O37: after four iterations the bound is reached, and the state there is a fixed point of the iteration. -/
theorem atMostFourIterationsAfterAnEstimate : Obligations.AtMostFourIterationsAfterAnEstimate := by
  intro s n h
  obtain ⟨reached, branch⟩ := iterate_four_reaches_bound Config.cfg h
  have fixed := iterate_of_bound Config.cfg ((iterate Config.cfg)^[4] s) (by rw [branch, reached])
  refine ⟨?more, _, runInstrs_replicate_nrit 4 s, reached⟩
  rw [runInstrs_replicate_nrit, runInstrs_replicate_nrit, Nat.add_comm, Function.iterate_add_apply,
    Function.iterate_fixed fixed]

/-! ### The final clamp (R158) -/

theorem toInt_clampToTemp_temp (s : State) : (clampToTemp s).temp.toInt = finalTemp s.t.toInt := toInt_toTemp _

/-- Settles O38: `TEMP` holds the clamped estimate as it is; the corner cases are the clamp at three estimates. -/
theorem clmpClampsTheWholeEstimate : Obligations.ClmpClampsTheWholeEstimate := by
  refine ⟨decode_encode (i := .clmp) rfl, fun s => ⟨_, exec_clmp s, rfl, toInt_clampToTemp_temp s, ?corners⟩⟩
  have atPoint {t : Int} (h : s.t.toInt = t) : (clampToTemp s).temp.toInt = finalTemp t :=
    h ▸ toInt_clampToTemp_temp s
  exact ⟨atPoint, atPoint, atPoint⟩

end Sys2Proof.Machine
end

section
/-!
PROOFS. The converter and the measurement cycle (44_converter R170 to R173): `CVT` and `MEAS` against the single-step
commands they are made of, and what each leaves in the registers.
-/
namespace Sys2Proof.Machine

/-! ### `CVT` (R170, R171) -/

/-- Settles O39: the loop of `CVT` is four iterations, of which those beyond the bound do nothing. -/
theorem cvtIsTheCompositionOfTheSingleSteps : Obligations.CvtIsTheCompositionOfTheSingleSteps := by
  intro s
  rw [exec_cvt, convertRes, iterateWhile_eq_iterate]
  rfl

theorem iterBound_branchOf (r : Int) : iterBound (branchOf r) = if 10000 ≤ r then 4 else 3 :=
  if_congr (branchOf_eq_true_iff r) rfl rfl

/-- The last pass comes after one pass fewer than the bound (R171). -/
theorem iterBound_sub_one (b : Bool) : iterBound b - 1 = if b then 3 else 2 := by cases b <;> rfl

section
variable (c : Config.Cfg) {s : State} {r : Int} (hr : s.res.toInt = r)
include hr

theorem convertRes_br : (convertRes c s).br = branchOf r := by rw [convertRes_spec c hr]

/-- A conversion ends with `IT` at the bound of its branch (R171). -/
theorem convertRes_it : (convertRes c s).it = if branchOf r then 4 else 3 := by
  rw [convertRes_spec c hr]
  cases branchOf r <;> rfl

/-- A conversion leaves `Convert(RES)` in `TEMP` (R171). -/
theorem toInt_convertRes_temp : (convertRes c s).temp.toInt = convert c r := by
  rw [convertRes_spec c hr]
  exact toInt_toTemp _

end

theorem toInt_convertRes_temp_eq_finalTemp (c : Config.Cfg) (s : State) :
    (convertRes c s).temp.toInt = finalTemp (convertRes c s).t.toInt := by
  rw [convertRes_temp, toInt_toTemp]

/-- Settles O40: the word by the round trip, the frame of a conversion, and where its loop ends. -/
theorem cvtComputesConvertOfRes : Obligations.CvtComputesConvertOfRes := by
  refine ⟨decode_encode (i := .cvt) rfl, ?_⟩
  rintro s _ r _ hr rfl rfl
  obtain ⟨-, ht, hf, hd⟩ := convertRes_results Config.cfg hr
  rw [iterBound_sub_one] at hf hd
  refine ⟨_, exec_cvt s, ?frame, toInt_convertRes_temp Config.cfg hr, toInt_convertRes_temp_eq_finalTemp Config.cfg s,
    ht, ?residual, ?derivative⟩
  case frame =>
    have frame := convertRes_frame Config.cfg s
    rw [convertRes_it Config.cfg hr, hr] at frame
    exact frame
  case residual =>
    rw [hf, toInt_toWide, wrap64_residualAt]
    rfl
  case derivative =>
    rw [hd, toInt_toWide, wrap64_derivativeAt]
    rfl

/-! ### `MEAS` (R172, R173) -/

/-- The four results of a cycle: the two drawn bytes fix the code and the fault flag, the code fixes the resistance, and
the resistance the temperature; no step asks for the fault flag (R172, R173). -/
theorem effect_meas_results (c : Config.Cfg) (s : State) :
    (effect c .meas s).raw = rawOf (deviceWord (rtdMsb s) (rtdLsb s)) ∧
    (effect c .meas s).fault = (rtdLsb s).getLsbD 0 ∧
    (effect c .meas s).res = toRes (scale c (effect c .meas s).raw.toNat) ∧
    (effect c .meas s).temp = toTemp (convert c (effect c .meas s).res.toInt) := by
  rw [effect, convertRes_spec c rfl, scaleToRes, readAndInterpret_spec]
  exact ⟨rfl, rfl, rfl, rfl⟩

/-- A cycle ends as a conversion of the resistance it leaves (R172). -/
theorem effect_meas_branch (c : Config.Cfg) (s : State) :
    (effect c .meas s).br = branchOf (effect c .meas s).res.toInt ∧
    (effect c .meas s).it.toNat = iterBound (branchOf (effect c .meas s).res.toInt) := by
  have kept : (effect c .meas s).res = (scaleToRes c (readAndInterpret c s)).res :=
    writesOnly_convertRes c _ .RES (by decide)
  rw [kept]
  exact ⟨convertRes_br c rfl, (convertRes_results c rfl).1⟩

/-- A cycle's events are those of its read (R172). -/
theorem effect_meas_trace (c : Config.Cfg) (s : State) :
    (effect c .meas s).trace = (readAndInterpret c s).trace :=
  writesOnly_convertRes c (scaleToRes c (readAndInterpret c s)) .trace (by decide)

theorem effect_meas_sel (c : Config.Cfg) (s : State) : (effect c .meas s).sel = false :=
  (convertRes_sel c _).trans (readAndInterpret_sel c s)

/-- Settles O43: the word by the round trip, the three commands one after another, and the results, the events and the
ports of a cycle. -/
theorem measReadsScalesAndConverts : Obligations.MeasReadsScalesAndConverts := by
  refine ⟨decode_encode (i := .meas) rfl, fun s => rfl, ?_⟩
  rintro s _ _ rfl rfl
  obtain ⟨raw, fault, res, temp⟩ := effect_meas_results Config.cfg s
  obtain ⟨br, it⟩ := effect_meas_branch Config.cfg s
  obtain ⟨responses, pending, idx⟩ := effect_keepsHostPorts Config.cfg (i := .meas) (by simp) s
  have ill : (effect Config.cfg .meas s).ill = s.ill := effect_writesOnly Config.cfg .meas s .ILL (by decide)
  have ohms : (effect Config.cfg .meas s).res.toInt = (scale Config.cfg (effect Config.cfg .meas s).raw.toNat : Int) :=
    res ▸ toInt_toRes _
  have le := scale_le (effect Config.cfg .meas s).raw
  refine ⟨_, exec_eq_effect .meas s, ?code, ?flag, ohms, by omega, by omega, ?temperature, br, ?count, ?events,
    ill, effect_meas_sel Config.cfg s, responses, pending, idx⟩
  case code =>
    rw [raw]
    exact toNat_rawOf_deviceWord _ _
  case flag =>
    rw [fault]
    exact toNat_getLsbD_zero _
  case temperature =>
    rw [temp]
    exact toInt_toTemp _
  case count => rw [it, iterBound_branchOf]
  case events =>
    rw [effect_meas_trace, readAndInterpret_spec]
    simp only [getLsbD_zero_eq_true_iff]
    rfl

/-- Settles O44: each of the four results is written in terms of the two bytes. -/
theorem measResultsDependOnTheTwoBytesOnly : Obligations.MeasResultsDependOnTheTwoBytesOnly := by
  intro s s' t t' hmsb hlsb ht ht'
  obtain rfl := eq_effect_of_exec ht
  obtain rfl := eq_effect_of_exec ht'
  obtain ⟨raw, fault, res, temp⟩ := effect_meas_results Config.cfg s
  obtain ⟨raw', fault', res', temp'⟩ := effect_meas_results Config.cfg s'
  have msb : rtdMsb s = rtdMsb s' := hmsb
  have lsb : rtdLsb s = rtdLsb s' := hlsb
  have sameRaw : (effect Config.cfg .meas s).raw = (effect Config.cfg .meas s').raw := by rw [raw, raw', msb, lsb]
  have sameRes : (effect Config.cfg .meas s).res = (effect Config.cfg .meas s').res := by rw [res, res', sameRaw]
  exact ⟨sameRaw, by rw [fault, fault', lsb], sameRes, by rw [temp, temp', sameRes]⟩

end Sys2Proof.Machine
end

section
/-!
PROOFS. The conversion in exact integers (44_converter R174), and by Newton's method on a concave curve its saturation at
both ends (R176): the tangents of a concave curve lie above it, so a step never lands above the root.
-/
namespace Sys2Proof.Machine

/-! ### The ice point and the thresholds (R175, R176) -/

/-- Settles O46: six conversions, evaluated. -/
theorem icePointAndClampThresholds : Obligations.IcePointAndClampThresholds :=
  ⟨by decide, by decide, by decide, by decide, by decide, by decide⟩

/-! ### One pass of the positive branch in exact integers (R174) -/

/-- One pass of the positive branch with no wrap (R170). -/
def exactPosStep (r t : Int) : Int :=
  clamp (t - Int.tdiv (exactResidual true t r) (exactDerivative true t)) 0 8500

theorem exactPosPasses_succ (r t : Int) (n : Nat) :
    exactPosPasses r (n + 1) t = exactPosPasses r n (exactPosStep r t) := rfl

theorem exactResidual_pos (t r : Int) :
    exactResidual true t r = 1000000000000 + 390830000 * t - 5775 * (t * t) - 100000000 * r := add_zero _

theorem exactDerivative_pos (t : Int) : exactDerivative true t = 390830000 - 11550 * t := rfl

/-- The range of the positive branch's estimates (43_rootfinder R152, R155). -/
def PosRange (t : Int) : Prop := 0 ≤ t ∧ t ≤ 8500

theorem posRange_clamp (v : Int) : PosRange (clamp v 0 8500) := clamp_range v (by decide)

theorem posRange_exactPosStep (r t : Int) : PosRange (exactPosStep r t) := posRange_clamp _

theorem posRange_exactPosPasses (r : Int) {t : Int} (ht : PosRange t) (n : Nat) : PosRange (exactPosPasses r n t) := by
  induction n generalizing t with
  | zero => exact ht
  | succ n ih => exact ih (posRange_exactPosStep r t)

theorem exactDerivative_pos_ge {t : Int} (ht : PosRange t) : 292655000 ≤ exactDerivative true t := by
  obtain ⟨lo, hi⟩ := ht
  rw [exactDerivative_pos]
  omega

section
variable {t r : Int} (ht : PosRange t) (hr : |r| ≤ 2147483648)
include ht

theorem derivativeAt_cfg_of_posRange : derivativeAt Config.cfg true t = exactDerivative true t := by
  obtain ⟨lo, hi⟩ := ht
  exact dPos_cfg_of_range (by omega) (by omega)

include hr

/-- The residual keeps below 2.2·10^17 in size (R174). -/
theorem abs_exactResidual_pos_le : |exactResidual true t r| ≤ 220000000000000000 := by
  obtain ⟨lo, hi⟩ := ht
  obtain ⟨rLo, rHi⟩ := abs_le.mp hr
  have square : t * t ≤ 8500 * 8500 := mul_le_mul hi hi lo (by decide)
  have square_nonneg : 0 ≤ t * t := mul_self_nonneg t
  rw [exactResidual_pos]
  exact abs_le.mpr ⟨by omega, by omega⟩

theorem residualAt_cfg_of_posRange : residualAt Config.cfg true t r = exactResidual true t r := by
  have bound := abs_exactResidual_pos_le ht hr
  rw [exactResidual_pos] at bound ⊢
  exact (fPos_cfg t r).trans (wrap64_of_abs_le (bound.trans (by decide)))

/-- The quotient is no larger than the residual, so neither it nor the difference wraps (R174). -/
theorem stepEstimate_pos_eq_exactPosStep :
    stepEstimate true t (exactResidual true t r) (exactDerivative true t) = exactPosStep r t := by
  have residual := abs_exactResidual_pos_le ht hr
  have size := Int.natAbs_tdiv_le_natAbs (exactResidual true t r) (exactDerivative true t)
  rw [Int.abs_eq_natAbs] at residual
  have quotient : tdiv (exactResidual true t r) (exactDerivative true t) =
      Int.tdiv (exactResidual true t r) (exactDerivative true t) := wrap64_of_range (by omega) (by omega)
  have difference : rawStepPos t (exactResidual true t r) (exactDerivative true t) =
      t - Int.tdiv (exactResidual true t r) (exactDerivative true t) := by
    obtain ⟨lo, hi⟩ := ht
    rw [rawStepPos, quotient]
    exact wrap64_of_range (by omega) (by omega)
  exact congrArg (clamp · 0 8500) difference

end

/-! ### Whole conversions of the positive branch in exact integers (R174) -/

section
variable {r : Int} (hr : |r| ≤ 2147483648)
include hr

/-- No pass wraps, and none finds a zero derivative (R174, 43_rootfinder R161). -/
theorem convertPasses_pos_eq_exactPosPasses {t : Int} (ht : PosRange t) (n : Nat) :
    convertPasses Config.cfg true r n t = exactPosPasses r n t := by
  induction n generalizing t with
  | zero => rfl
  | succ n ih =>
    have derivative := derivativeAt_cfg_of_posRange ht
    have slope := exactDerivative_pos_ge ht
    have nonzero : derivativeAt Config.cfg true t ≠ 0 := by omega
    rw [convertPasses_of_nonzero Config.cfg true r nonzero, residualAt_cfg_of_posRange ht hr, derivative,
      stepEstimate_pos_eq_exactPosStep ht hr, ih (posRange_exactPosStep r t), exactPosPasses_succ]

theorem estimate_cfg_pos :
    estimate Config.cfg true r = clamp (Int.tdiv ((r - 10000) * 100000000) 390830000) 0 8500 :=
  congrArg (clamp · 0 8500) (linearEstimate_cfg hr)

theorem estimateAfter_pos_eq_exactPosPasses (hpos : 10000 ≤ r) (n : Nat) :
    estimateAfter Config.cfg r n =
      exactPosPasses r n (clamp (Int.tdiv ((r - 10000) * 100000000) 390830000) 0 8500) := by
  rw [estimateAfter, (branchOf_eq_true_iff r).mpr hpos, estimate_cfg_pos hr,
    convertPasses_pos_eq_exactPosPasses hr (posRange_clamp _)]

theorem posRange_estimateAfter (hpos : 10000 ≤ r) (n : Nat) : PosRange (estimateAfter Config.cfg r n) := by
  rw [estimateAfter_pos_eq_exactPosPasses hr hpos]
  exact posRange_exactPosPasses r (posRange_clamp _) n

/-- The final clamp changes nothing in the positive branch. -/
theorem convert_pos_eq_exactPosConvert (hpos : 10000 ≤ r) : convert Config.cfg r = exactPosConvert r := by
  obtain ⟨lo, hi⟩ := posRange_exactPosPasses r (posRange_clamp (Int.tdiv ((r - 10000) * 100000000) 390830000)) 4
  have bound : iterBound (branchOf r) = 4 := (iterBound_branchOf r).trans (if_pos hpos)
  calc convert Config.cfg r
    _ = finalTemp (estimateAfter Config.cfg r (iterBound (branchOf r))) := rfl
    _ = finalTemp (exactPosConvert r) := by
      rw [bound, estimateAfter_pos_eq_exactPosPasses hr hpos, exactPosConvert]
    _ = exactPosConvert r := clamp_of_mem (le_trans (by decide) lo) hi

end

/-- Settles O48: the passes of the conversion and its last residual and derivative are the exact ones. -/
theorem positiveBranchComputesInExactIntegers : Obligations.PositiveBranchComputesInExactIntegers := by
  rintro s _ _ hpos rfl rfl
  have hr := abs_toInt_res_le s.res
  have branch := (branchOf_eq_true_iff s.res.toInt).mpr hpos
  obtain ⟨-, ht, hf, hd⟩ := convertRes_results Config.cfg (s := s) rfl
  rw [branch] at ht hf hd
  have last : estimateAfter Config.cfg s.res.toInt (iterBound true - 1) = exactPosPasses s.res.toInt 3
      (clamp (Int.tdiv ((s.res.toInt - 10000) * 100000000) 390830000) 0 8500) :=
    estimateAfter_pos_eq_exactPosPasses hr hpos 3
  have inside := posRange_estimateAfter hr hpos (iterBound true - 1)
  have temp : (convertRes Config.cfg s).temp.toInt = exactPosConvert s.res.toInt :=
    (toInt_convertRes_temp Config.cfg rfl).trans (convert_pos_eq_exactPosConvert hr hpos)
  refine ⟨_, exec_cvt s, temp, ?estimate, ?residual, ?derivative⟩
  case estimate =>
    rw [temp, ht]
    exact estimateAfter_pos_eq_exactPosPasses hr hpos 4
  case residual =>
    rw [hf, toInt_toWide, wrap64_residualAt, residualAt_cfg_of_posRange inside hr, last]
  case derivative =>
    rw [hd, toInt_toWide, wrap64_derivativeAt, derivativeAt_cfg_of_posRange inside, last]

/-! ### Saturation at the hot end (R176) -/

theorem le_clamp {v a lo hi : Int} (hv : a ≤ v) (hhi : a ≤ hi) : a ≤ clamp v lo hi := by
  unfold clamp
  split_ifs <;> omega

/-- A larger resistance has the smaller residual. -/
theorem exactResidual_anti (b : Bool) (t : Int) {r r' : Int} (h : r ≤ r') :
    exactResidual b t r' ≤ exactResidual b t r := by
  unfold exactResidual
  omega

/-- Newton's step from `t` on the concave parabola reaches any `a` above `t` whose residual is below 0 by at least what
the parabola falls below its tangent between the two. -/
theorem le_exactPosStep {t a r : Int} (ht : PosRange t) (ha : a ≤ 8500)
    (sag : 5775 * ((a - t) * (a - t)) ≤ -exactResidual true a r) : a ≤ exactPosStep r t := by
  have taylor : -exactResidual true t r - (a - t) * exactDerivative true t =
      -exactResidual true a r - 5775 * ((a - t) * (a - t)) := by
    rw [exactResidual_pos, exactResidual_pos, exactDerivative_pos]
    ring
  have slope := exactDerivative_pos_ge ht
  have reached : a - t ≤ Int.tdiv (-exactResidual true t r) (exactDerivative true t) :=
    Int.le_tdiv_of_mul_le (by omega) (by omega)
  rw [Int.neg_tdiv] at reached
  exact le_clamp (by omega) ha

/-- At 390.49 ohm the residual is below 0 on the whole range: the root lies above the upper clamp. -/
theorem exactResidual_hot_nonpos {t : Int} (ht : PosRange t) : exactResidual true t 39049 ≤ 0 := by
  obtain ⟨lo, hi⟩ := ht
  have rising : 0 ≤ (8500 - t) * (341742500 - 5775 * t) := mul_nonneg (by omega) (by omega)
  have below : exactResidual true t 39049 = -88750000 - (8500 - t) * (341742500 - 5775 * t) := by
    rw [exactResidual_pos]
    ring
  omega

section
variable {r : Int} (hr : 39049 ≤ r)
include hr

/-- From `b` or above, a step at 390.49 ohm or more reaches what the step from `b` reaches at 390.49 ohm. -/
theorem le_exactPosStep_of_hot {b t a : Int} (hb : b ≤ t) (ht : PosRange t) (ha : a ≤ 8500)
    (sag : 5775 * ((a - b) * (a - b)) ≤ -exactResidual true a 39049) : a ≤ exactPosStep r t := by
  by_cases hta : t ≤ a
  · have square : (a - t) * (a - t) ≤ (a - b) * (a - b) := mul_self_le_mul_self (by omega) (by omega)
    have residual := exactResidual_anti true a hr
    exact le_exactPosStep ht ha (by omega)
  · have residual := (exactResidual_anti true t hr).trans (exactResidual_hot_nonpos ht)
    have kept : t ≤ exactPosStep r t := le_exactPosStep ht ht.2 (by rw [sub_self]; omega)
    omega

/-- Once at the upper clamp the passes stay there. -/
theorem exactPosPasses_of_hot {t : Int} (ht : PosRange t) (top : 8500 ≤ t) (n : Nat) :
    exactPosPasses r n t = 8500 := by
  induction n generalizing t with
  | zero => exact le_antisymm ht.2 top
  | succ n ih =>
    exact ih (posRange_exactPosStep r t) (le_exactPosStep_of_hot hr top ht (by decide) (by decide))

/-- The linear estimate at 390.49 ohm is 743.2 °C, and it grows with the resistance. -/
theorem le_linearQuotient_of_hot : 7432 ≤ Int.tdiv ((r - 10000) * 100000000) 390830000 :=
  Int.le_tdiv_of_mul_le (by decide) (by omega)

/-- From 743.2 °C one pass reaches 847.8 °C and a second the upper clamp. -/
theorem exactPosPasses_four_of_hot {e : Int} (he : PosRange e) (start : 7432 ≤ e) : exactPosPasses r 4 e = 8500 := by
  have first : 8478 ≤ exactPosStep r e := le_exactPosStep_of_hot hr start he (by decide) (by decide)
  have second : 8500 ≤ exactPosStep r (exactPosStep r e) :=
    le_exactPosStep_of_hot hr first (posRange_exactPosStep r e) (by decide) (by decide)
  exact exactPosPasses_of_hot hr (posRange_exactPosStep r _) second 2

theorem exactPosConvert_of_hot : exactPosConvert r = 8500 :=
  exactPosPasses_four_of_hot hr (posRange_clamp _) (le_clamp (le_linearQuotient_of_hot hr) (by decide))

end

/-! ### One pass of the negative branch in exact integers (R174) -/

/-- One pass of the negative branch with no wrap (R170). -/
def exactNegStep (r t : Int) : Int :=
  t - Int.tdiv (10 * exactResidual false t r) (exactDerivative false t)

section
variable {t : Int} (lo : -6600 ≤ t) (hi : t ≤ 0)
include lo hi

theorem exactDerivative_neg_ge : 3908300000 ≤ exactDerivative false t := by
  have unwrapped : dNeg Config.cfg t = exactDerivative false t :=
    derivativeAt_cfg_of_abs_le (abs_le.mpr ⟨lo, by omega⟩) false
  obtain ⟨-, -, neg⟩ := derivativesStayAwayFromZero
  exact unwrapped ▸ neg t lo hi

variable {r : Int} (hr : |r| ≤ 2147483648)
include hr

theorem abs_exactResidual_neg_le : |exactResidual false t r| ≤ 220000000000000000 := by
  have ht : |t| ≤ 6600 := abs_le.mpr ⟨lo, by omega⟩
  obtain ⟨rLo, rHi⟩ := abs_le.mp hr
  obtain ⟨sqLo, sqHi⟩ := abs_le.mp (abs_square_le ht)
  have quartic := abs_tdiv_le (k := 10000000) (n := 913972783680) (abs_quartic_le ht)
  obtain ⟨qLo, qHi⟩ := abs_le.mp quartic
  push_cast at qLo qHi
  simp only [exactResidual, Bool.false_eq_true, if_false]
  exact abs_le.mpr ⟨by omega, by omega⟩

/-- Up to 660 °C below zero neither the tenfold residual, its quotient nor the difference wraps (R174). -/
theorem stepEstimate_neg_eq_exactNegStep :
    stepEstimate false t (exactResidual false t r) (exactDerivative false t) = exactNegStep r t := by
  have residual := abs_exactResidual_neg_le lo hi hr
  have size := Int.natAbs_tdiv_le_natAbs (10 * exactResidual false t r) (exactDerivative false t)
  rw [Int.abs_eq_natAbs] at residual
  have product : wrap64 (10 * exactResidual false t r) = 10 * exactResidual false t r :=
    wrap64_of_range (by omega) (by omega)
  have quotient : tdiv (10 * exactResidual false t r) (exactDerivative false t) =
      Int.tdiv (10 * exactResidual false t r) (exactDerivative false t) := wrap64_of_range (by omega) (by omega)
  calc stepEstimate false t (exactResidual false t r) (exactDerivative false t)
    _ = wrap64 (t - tdiv (wrap64 (10 * exactResidual false t r)) (exactDerivative false t)) := rfl
    _ = wrap64 (exactNegStep r t) := by rw [product, quotient, exactNegStep]
    _ = exactNegStep r t := by
      unfold exactNegStep
      exact wrap64_of_range (by omega) (by omega)

/-- A pass of the negative branch takes the exact step. -/
theorem convertPasses_neg_succ (n : Nat) :
    convertPasses Config.cfg false r (n + 1) t = convertPasses Config.cfg false r n (exactNegStep r t) := by
  have ht : |t| ≤ 6600 := abs_le.mpr ⟨lo, by omega⟩
  have derivative := derivativeAt_cfg_of_abs_le ht false
  have slope := exactDerivative_neg_ge lo hi
  have nonzero : derivativeAt Config.cfg false t ≠ 0 := by omega
  rw [convertPasses_of_nonzero Config.cfg false r nonzero, residualAt_cfg_of_abs_le ht hr, derivative,
    stepEstimate_neg_eq_exactNegStep lo hi hr]

end

/-! ### The quartic term (42_evaluator R134, R135) -/

/-- The quartic term of the residual before its division (42_evaluator R134). -/
def quarticTerm (t : Int) : Int := -4183 * (t - 1000) * (t * t * t)

/-- The derivative of the quartic term before its division (42_evaluator R135). -/
def quarticSlope (t : Int) : Int := -4183 * (4 * (t * t * t) - 3000 * (t * t))

theorem exactResidual_neg (t r : Int) :
    exactResidual false t r = 1000000000000 + 390830000 * t - 5775 * (t * t) - 100000000 * r
      + Int.tdiv (quarticTerm t) 10000000 := rfl

theorem exactDerivative_neg (t : Int) :
    exactDerivative false t = 3908300000 - 115500 * t + Int.tdiv (quarticSlope t) 1000000 := rfl

theorem quarticTerm_nonpos {t : Int} (ht : t ≤ 0) : quarticTerm t ≤ 0 := by
  have cube : t * t * t ≤ 0 := mul_nonpos_of_nonneg_of_nonpos (mul_self_nonneg t) ht
  exact mul_nonpos_of_nonneg_of_nonpos (by omega) cube

/-- The quartic term is concave below 0: its tangents lie above it. -/
theorem quarticTerm_le_tangent {a t : Int} (ha : a ≤ 0) (ht : t ≤ 0) :
    quarticTerm a ≤ quarticTerm t + (a - t) * quarticSlope t := by
  have taylor : quarticTerm t + (a - t) * quarticSlope t - quarticTerm a =
      4183 * ((a - t) * (a - t)) * (a * a + 2 * (a * t) + 3 * (t * t) - 1000 * (a + 2 * t)) := by
    unfold quarticTerm quarticSlope
    ring
  have curvature : 0 ≤ a * a + 2 * (a * t) + 3 * (t * t) - 1000 * (a + 2 * t) := by
    have mixed : 0 ≤ a * t := mul_nonneg_of_nonpos_of_nonpos ha ht
    have aa := mul_self_nonneg a
    have tt := mul_self_nonneg t
    omega
  have gap := mul_nonneg (mul_nonneg (show (0 : Int) ≤ 4183 by decide) (mul_self_nonneg (a - t))) curvature
  omega

/-! ### Saturation at the cold end (R176) -/

theorem clamp_of_le {v lo hi : Int} (h : v ≤ lo) (hlh : lo ≤ hi) : clamp v lo hi = lo := by
  unfold clamp
  split_ifs <;> omega

/-- A quotient below a bound that is not negative. -/
theorem tdiv_le_of_lt_mul {a b k : Int} (hb : 0 < b) (hk : 0 ≤ k) (h : a < (k + 1) * b) : Int.tdiv a b ≤ k := by
  by_cases ha : 0 ≤ a
  · rw [Int.tdiv_eq_ediv_of_nonneg ha]
    exact Int.lt_add_one_iff.mp ((Int.ediv_lt_iff_lt_mul hb).mpr h)
  · have negative := Int.tdiv_le_tdiv hb (Int.not_le.mp ha).le
    rw [Int.zero_tdiv] at negative
    exact negative.trans hk

/-- The estimates of a conversion from 0 to 18.56 ohm. -/
def ColdRange (t : Int) : Prop := -2558 ≤ t ∧ t ≤ -2000

section
variable {r t : Int} (ht : ColdRange t)
include ht

/-- The residual lies below its linear part, whose root for 0 ohm is −255.8 °C, and the derivative above its own: no step
goes below that root. -/
theorem le_exactNegStep_of_cold (hr : 0 ≤ r) : -2558 ≤ exactNegStep r t := by
  obtain ⟨lo, hi⟩ := ht
  have slope : 3908300000 ≤ exactDerivative false t := exactDerivative_neg_ge (by omega) (by omega)
  have residual : exactResidual false t r ≤ 1000000000000 + 390830000 * t := by
    have quartic := Int.tdiv_le_tdiv (show (0 : Int) < 10000000 by decide) (quarticTerm_nonpos (t := t) (by omega))
    have square := mul_self_nonneg t
    rw [Int.zero_tdiv] at quartic
    rw [exactResidual_neg]
    omega
  have scaled : (t + 2558 + 1) * 3908300000 ≤ (t + 2558 + 1) * exactDerivative false t :=
    mul_le_mul_of_nonneg_left slope (by omega)
  have quotient : Int.tdiv (10 * exactResidual false t r) (exactDerivative false t) ≤ t + 2558 :=
    tdiv_le_of_lt_mul (by omega) (by omega) (by omega)
  unfold exactNegStep
  omega

/-- The tangent at `t` is above 0 at −199.9 °C, because the residual there is: up to 18.56 ohm by more than the two
truncations take away. -/
theorem tangent_pos_of_cold (hr : r ≤ 1856) :
    0 < 10 * exactResidual false t r + (-1999 - t) * exactDerivative false t := by
  obtain ⟨lo, hi⟩ := ht
  have root : quarticTerm (-1999) = -100208073452357183 := by decide
  have concave := quarticTerm_le_tangent (a := -1999) (by decide) (show t ≤ 0 by omega)
  have square := mul_self_nonneg (-1999 - t)
  have quartic := Int.mul_tdiv_self_le (k := 10000000) (neg_nonneg.mpr (quarticTerm_nonpos (show t ≤ 0 by omega)))
  rw [Int.neg_tdiv] at quartic
  have slope : quarticSlope t ≤ 1000000 * Int.tdiv (quarticSlope t) 1000000 + 1000000 :=
    (Int.lt_mul_tdiv_self_add (by decide)).le
  have scaled := mul_le_mul_of_nonneg_left slope (show 0 ≤ -1999 - t by omega)
  rw [exactResidual_neg, exactDerivative_neg]
  linarith

/-- Newton's step from below the root stays below it, and from above it goes down: no step passes −200.0 °C. -/
theorem exactNegStep_le_of_cold (hr : r ≤ 1856) : exactNegStep r t ≤ -2000 := by
  have tangent := tangent_pos_of_cold ht hr
  obtain ⟨lo, hi⟩ := ht
  have slope : 3908300000 ≤ exactDerivative false t := exactDerivative_neg_ge (by omega) (by omega)
  have factor : -2000 - t + 1 = -1999 - t := by omega
  have quotient : Int.tdiv (-(10 * exactResidual false t r)) (exactDerivative false t) ≤ -2000 - t :=
    tdiv_le_of_lt_mul (by omega) (by omega) (by rw [factor]; omega)
  rw [Int.neg_tdiv] at quotient
  unfold exactNegStep
  omega

end

section
variable {r : Int} (lo : 0 ≤ r) (hi : r ≤ 1856)
include lo hi

theorem coldRange_convertPasses {t : Int} (ht : ColdRange t) (n : Nat) :
    ColdRange (convertPasses Config.cfg false r n t) := by
  induction n generalizing t with
  | zero => exact ht
  | succ n ih =>
    have stepped : ColdRange (exactNegStep r t) := ⟨le_exactNegStep_of_cold ht lo, exactNegStep_le_of_cold ht hi⟩
    obtain ⟨tLo, tHi⟩ := ht
    rw [convertPasses_neg_succ (by omega) (by omega) (abs_le.mpr ⟨by omega, by omega⟩)]
    exact ih stepped

theorem coldRange_estimate : ColdRange (estimate Config.cfg false r) := by
  have value : estimate Config.cfg false r = -Int.tdiv ((10000 - r) * 100000000) 390830000 :=
    (linearEstimate_cfg (abs_le.mpr ⟨by omega, by omega⟩)).trans (linearQuotient_eq_neg_deficit r)
  have deficit : Int.tdiv ((10000 - r) * 100000000) 390830000 = (10000 - r) * 100000000 / 390830000 :=
    Int.tdiv_eq_ediv_of_nonneg (by omega)
  rw [value, deficit]
  exact ⟨by omega, by omega⟩

/-- The estimates never leave the cold range, which the final clamp takes to its lower end. -/
theorem convert_of_cold : convert Config.cfg r = -2000 := by
  have branch := (branchOf_eq_false_iff r).mpr (by omega)
  obtain ⟨-, cold⟩ := coldRange_convertPasses lo hi (coldRange_estimate lo hi) (iterBound false)
  rw [convert, branch]
  exact clamp_of_le cold (by decide)

end

/-- Settles O47: above the threshold two passes reach the upper clamp, and below it no pass leaves the lower one. -/
theorem conversionSaturatesAtBothEnds : Obligations.ConversionSaturatesAtBothEnds := by
  refine ⟨fun r lo hi => ?hot, fun r => convert_of_cold⟩
  rw [convert_pos_eq_exactPosConvert (abs_le.mpr ⟨by omega, by omega⟩) (by omega), exactPosConvert_of_hot lo]

end Sys2Proof.Machine
end

section
/-!
PROOFS. The exceptional conditions (60_exceptions R185 to R190, R197): the events each part of a command can meet, the
commands of each row of the cause table, and the passes of a conversion with their conditions.
-/
namespace Sys2Proof.Machine

/-! ### Decodes and clamps (R187, R189) -/

@[simp] theorem mem_decodeConditions_iff (a : Anomaly) (msb lsb : Byte) :
    a ∈ decodeConditions msb lsb ↔ a = .devFault ∧ lsb.getLsbD 0 = true := by
  rw [decodeConditions, faultOf_deviceWord]
  cases lsb.getLsbD 0 <;> simp

@[simp] theorem mem_rangeConditions_iff (a : Anomaly) (v lo hi : Int) :
    a ∈ rangeConditions v lo hi ↔ a = .range ∧ (v < lo ∨ hi < v) := by
  unfold rangeConditions
  split_ifs with h <;> simp [h]

@[simp] theorem mem_finalConditions_iff (a : Anomaly) (s : State) :
    a ∈ finalConditions s ↔ a = .range ∧ (s.t.toInt < -2000 ∨ 8500 < s.t.toInt) :=
  mem_rangeConditions_iff a s.t.toInt (-2000) 8500

/-- The clamp of the estimate is one of the positive branch (R189, 43_rootfinder R152). -/
@[simp] theorem mem_estimateConditions_iff (a : Anomaly) (c : Config.Cfg) (s : State) :
    a ∈ estimateConditions c s ↔
      a = .range ∧ s.br = true ∧ (linearEstimate c s.res.toInt < 0 ∨ 8500 < linearEstimate c s.res.toInt) := by
  unfold estimateConditions
  split_ifs with h
  · rw [mem_rangeConditions_iff, and_iff_right h]
    rfl
  · simp [h]

/-! ### One pass (R188, R189, 43_rootfinder R155 to R157) -/

/-- A pass at resistance `r` steps from `u` out of the range of the positive branch (43_rootfinder R155). -/
def StepsOutOfRange (c : Config.Cfg) (b : Bool) (r u : Int) : Prop :=
  rawStepPos u (residualAt c b u r) (derivativeAt c b u) < 0 ∨
    8500 < rawStepPos u (residualAt c b u r) (derivativeAt c b u)

/-- A pass of branch `b` at resistance `r` from the estimate `u` meets the condition `a`: its derivative is zero, or it
is not and the positive branch clamps the new estimate (R197 (6)). -/
def MeetsInPass (c : Config.Cfg) (b : Bool) (r u : Int) (a : Anomaly) : Prop :=
  (a = .dZero ∧ derivativeAt c b u = 0) ∨
  (a = .range ∧ b = true ∧ derivativeAt c b u ≠ 0 ∧ StepsOutOfRange c b r u)

section
variable {c : Config.Cfg} {b : Bool} {r u : Int} {a : Anomaly}

theorem meetsInPass_of_zero (hz : derivativeAt c b u = 0) : MeetsInPass c b r u a ↔ a = .dZero := by
  simp [MeetsInPass, hz]

theorem meetsInPass_of_nonzero (hz : derivativeAt c b u ≠ 0) :
    MeetsInPass c b r u a ↔ a = .range ∧ b = true ∧ StepsOutOfRange c b r u := by
  simp [MeetsInPass, hz]

theorem MeetsInPass.dZero_or_range (h : MeetsInPass c b r u a) : a = .dZero ∨ a = .range :=
  h.imp And.left And.left

end

@[simp] theorem meetsInPass_dZero_iff (c : Config.Cfg) (b : Bool) (r u : Int) :
    MeetsInPass c b r u .dZero ↔ derivativeAt c b u = 0 := by
  simp [MeetsInPass]

@[simp] theorem meetsInPass_range_iff (c : Config.Cfg) (b : Bool) (r u : Int) :
    MeetsInPass c b r u .range ↔ b = true ∧ derivativeAt c b u ≠ 0 ∧ StepsOutOfRange c b r u := by
  simp [MeetsInPass]

/-- An iteration at its bound meets nothing; below it, what a pass from `T` meets (43_rootfinder R157). -/
theorem mem_passConditions_iff (a : Anomaly) (c : Config.Cfg) (s : State) :
    a ∈ passConditions c s ↔
      s.it.toNat < iterBound s.br ∧ MeetsInPass c s.br s.res.toInt s.t.toInt a := by
  have hf : (evaluate c s).f.toInt = residualAt c s.br s.t.toInt s.res.toInt := by simp [evaluate]
  have hd : (evaluate c s).d.toInt = derivativeAt c s.br s.t.toInt := by simp [evaluate]
  have ht : (evaluate c s).t = s.t := rfl
  simp only [passConditions, evaluate_d_eq_zero_iff, hf, hd, ht]
  split_ifs with bound zero pos
  case pos => simp [Nat.not_lt.mpr bound]
  case pos => rw [meetsInPass_of_zero zero, and_iff_right (Nat.not_le.mp bound), List.mem_singleton]
  case pos =>
    rw [meetsInPass_of_nonzero zero, and_iff_right (Nat.not_le.mp bound), and_iff_right pos, mem_rangeConditions_iff]
    rfl
  case neg =>
    rw [meetsInPass_of_nonzero zero]
    simp [pos]

/-! ### The passes of a conversion (R197 (6), 44_converter R170, R171) -/

theorem toInt_iterate_t (c : Config.Cfg) {s : State} (below : s.it.toNat < iterBound s.br) :
    (iterate c s).t.toInt = skippingStep c s.br s.res.toInt s.t.toInt := by
  rw [iterate_spec c s below]
  exact toInt_nextEstimate c s

/-- The first pass is a skipping step. -/
theorem convertPasses_succ (c : Config.Cfg) (b : Bool) (r : Int) (n : Nat) (t : Int) :
    convertPasses c b r (n + 1) t = convertPasses c b r n (skippingStep c b r t) := by
  rw [convertPasses_eq_iterate_skippingStep, convertPasses_eq_iterate_skippingStep, Function.iterate_succ_apply]

/-- A pass with a derivative that is not zero leaves one pass fewer (43_rootfinder R157). -/
theorem passesLeft_of_nonzero (c : Config.Cfg) {s : State} (below : s.it.toNat < iterBound s.br)
    (nonzero : derivativeAt c s.br s.t.toInt ≠ 0) :
    iterBound s.br - s.it.toNat = iterBound s.br - (iterate c s).it.toNat + 1 := by
  rw [iterate_it_of_nonzero c s below nonzero]
  omega

/-- The loop meets what some pass of the conversion meets from the estimate before it. Once a derivative is zero the
estimate stays, so a positive branch that stops there leaves out only repetitions of the same condition. -/
theorem mem_passesConditions_iff (a : Anomaly) (c : Config.Cfg) (n : Nat) (s : State)
    (hb : s.it.toNat ≤ iterBound s.br) (hn : iterBound s.br - s.it.toNat ≤ n) :
    a ∈ passesConditions c n s ↔ ∃ k < iterBound s.br - s.it.toNat,
      MeetsInPass c s.br s.res.toInt (convertPasses c s.br s.res.toInt k s.t.toInt) a := by
  induction n generalizing s with
  | zero => simp [passesConditions, Nat.le_zero.mp hn]
  | succ n ih =>
    by_cases below : s.it.toNat < iterBound s.br
    · obtain ⟨raised, bounded⟩ := iterate_it c s below
      have rest := ih (iterate c s) (by rwa [iterate_br]) (by rw [iterate_br]; omega)
      rw [iterate_br, iterate_res, toInt_iterate_t c below] at rest
      rw [passesConditions, if_pos below, List.mem_append, mem_passConditions_iff, and_iff_right below, rest]
      by_cases zero : derivativeAt c s.br s.t.toInt = 0
      · have fixed : skippingStep c s.br s.res.toInt s.t.toInt = s.t.toInt := if_pos zero
        simp only [fixed, convertPasses_of_zero c s.br s.res.toInt zero]
        constructor
        · rintro (here | ⟨_, _, here⟩) <;> exact ⟨0, by omega, here⟩
        · rintro ⟨_, _, here⟩
          exact .inl here
      · simp only [passesLeft_of_nonzero c below zero, Nat.exists_lt_succ_left, convertPasses_succ]
        rfl
    · simp [passesConditions, below, Nat.sub_eq_zero_of_le (Nat.not_lt.mp below)]

/-! ### A whole conversion (R197 (5) to (7)) -/

section
variable (a : Anomaly) (c : Config.Cfg) {s : State} {r : Int} (hr : s.res.toInt = r)
include hr

/-- The conditions of a conversion: of the clamped estimate, of its passes, of the final clamp. -/
theorem mem_conversionConditions_iff :
    a ∈ conversionConditions c s ↔
      (a = .range ∧ branchOf r = true ∧ (linearEstimate c r < 0 ∨ 8500 < linearEstimate c r)) ∨
      (∃ k < iterBound (branchOf r), MeetsInPass c (branchOf r) r (estimateAfter c r k) a) ∨
      (a = .range ∧ ((convertRes c s).t.toInt < -2000 ∨ 8500 < (convertRes c s).t.toInt)) := by
  subst hr
  have start : (loadEstimate c (selectBranch s)).t.toInt = estimate c (branchOf s.res.toInt) s.res.toInt :=
    toInt_loadEstimate_t c (selectBranch s)
  have passes := mem_passesConditions_iff a c 4 (loadEstimate c (selectBranch s)) (Nat.zero_le _)
    (iterBound_le (branchOf s.res.toInt)).2
  rw [start] at passes
  rw [conversionConditions, List.mem_append, List.mem_append, mem_estimateConditions_iff, passes,
    mem_finalConditions_iff, or_assoc]
  rfl

/-- The clamps speak only of the range condition (R188). -/
theorem dZero_mem_conversionConditions_iff :
    .dZero ∈ conversionConditions c s ↔
      ∃ k < iterBound (branchOf r), derivativeAt c (branchOf r) (estimateAfter c r k) = 0 := by
  simp [mem_conversionConditions_iff .dZero c hr]

/-- In the negative branch the final clamp is the only one (R189). -/
theorem range_mem_conversionConditions_of_neg (hneg : r < 10000) :
    .range ∈ conversionConditions c s ↔
      ((convertRes c s).t.toInt < -2000 ∨ 8500 < (convertRes c s).t.toInt) := by
  simp [mem_conversionConditions_iff .range c hr, (branchOf_eq_false_iff r).mpr hneg]

end

/-- A conversion meets no other condition than a zero derivative and a clamp (R197). -/
theorem dZero_or_range_of_mem_conversionConditions {a : Anomaly} {c : Config.Cfg} {s : State}
    (h : a ∈ conversionConditions c s) : a = .dZero ∨ a = .range := by
  obtain ⟨clamped, -⟩ | ⟨_, -, met⟩ | ⟨clamped, -⟩ := (mem_conversionConditions_iff a c rfl).mp h
  · exact .inr clamped
  · exact met.dZero_or_range
  · exact .inr clamped

/-! ### The rows of the cause table (R185, R197) -/

/-- The conditions in whose row of the cause table a command stands (R185); a read of a reserved index is a reserved
encoding and meets `IllegalCommand` only (R190). -/
def tabledConditions : Instr → List Anomaly
  | .nop | .rst | .init | .scale | .setr _ | .sett _ | .bsel | .eval => []
  | .rdrtd | .dec _ _ => [.devFault]
  | .est | .clmp => [.range]
  | .nrit | .cvt => [.dZero, .range]
  | .meas => [.devFault, .dZero, .range]
  | .rd reg => if reg.toNat < 8 then [] else [.illegalCommand]

@[simp] theorem mem_tabledConditions_rd (a : Anomaly) (reg : BitVec 4) :
    a ∈ tabledConditions (.rd reg) ↔ a = .illegalCommand ∧ 8 ≤ reg.toNat := by
  by_cases h : reg.toNat < 8 <;> simp [tabledConditions, h]
  omega

/-- Exactly the reads of a reserved index meet `IllegalCommand`, and nothing else (R190). -/
theorem mem_conditions_rd_iff (a : Anomaly) (reg : BitVec 4) (s : State) :
    a ∈ conditions (.rd reg) s ↔ a = .illegalCommand ∧ 8 ≤ reg.toNat := by
  rw [conditions, ← readReg_eq_none_iff reg s]
  cases readReg reg s <;> simp

/-- A command meets only conditions in whose row it stands. -/
theorem mem_tabledConditions_of_mem_conditions {a : Anomaly} {i : Instr} {s : State} (h : a ∈ conditions i s) :
    a ∈ tabledConditions i := by
  cases i with
  | rd reg => exact (mem_tabledConditions_rd a reg).mpr ((mem_conditions_rd_iff a reg s).mp h)
  | rdrtd | dec => exact List.mem_singleton.mpr ((mem_decodeConditions_iff _ _ _).mp h).1
  | est => exact List.mem_singleton.mpr ((mem_estimateConditions_iff _ _ _).mp h).1
  | clmp => exact List.mem_singleton.mpr ((mem_finalConditions_iff _ _).mp h).1
  | nrit =>
    obtain ⟨-, met⟩ := (mem_passConditions_iff a Config.cfg s).mp h
    simpa [tabledConditions] using met.dZero_or_range
  | cvt =>
    simpa [tabledConditions] using dZero_or_range_of_mem_conversionConditions h
  | meas =>
    obtain read | converted := List.mem_append.mp h
    · obtain ⟨rfl, -⟩ := (mem_decodeConditions_iff _ _ _).mp read
      simp [tabledConditions]
    · simpa [tabledConditions] using .inr (dZero_or_range_of_mem_conversionConditions converted)
  | _ => exact absurd h List.not_mem_nil

theorem devFault_mem_tabledConditions_iff (i : Instr) :
    .devFault ∈ tabledConditions i ↔ i = .rdrtd ∨ i = .meas ∨ ∃ msb lsb, i = .dec msb lsb := by
  cases i with
  | rd => simp
  | _ => simp [tabledConditions]

theorem dZero_mem_tabledConditions_iff (i : Instr) :
    .dZero ∈ tabledConditions i ↔ i = .nrit ∨ i = .cvt ∨ i = .meas := by
  cases i with
  | rd => simp
  | _ => simp [tabledConditions]

theorem range_mem_tabledConditions_iff (i : Instr) :
    .range ∈ tabledConditions i ↔ i = .est ∨ i = .nrit ∨ i = .clmp ∨ i = .cvt ∨ i = .meas := by
  cases i with
  | rd => simp
  | _ => simp [tabledConditions]

/-- Only an ill-formed command, which no word decodes to, meets `IllegalCommand` (R190, 30_encoding R77). -/
theorem illegalCommand_notMem_tabledConditions {i : Instr} (h : i.WellFormed = true) :
    .illegalCommand ∉ tabledConditions i := by
  cases i with
  | rd reg =>
    have named : reg.toNat < 8 := of_decide_eq_true h
    simp [named]
  | _ => simp [tabledConditions]

/-- A timeout is the case that a drawn byte is 0, and no event of any command (R186). -/
theorem timeout_notMem_tabledConditions (i : Instr) : .timeout ∉ tabledConditions i := by
  cases i with
  | rd => simp
  | _ => simp [tabledConditions]

/-! ### Command words (R190) -/

theorem wordConditions_legal {w : CmdWord} {i : Instr} (hd : decode w = .legal i) (s : State) :
    wordConditions w s = conditions i s := by
  simp only [wordConditions, hd]

theorem wordConditions_reserved {w : CmdWord} {why : Reserved} (hd : decode w = .reserved why) (s : State) :
    wordConditions w s = [.illegalCommand] := by
  simp only [wordConditions, hd]

theorem illegalCommand_mem_wordConditions_iff (w : CmdWord) (s : State) :
    .illegalCommand ∈ wordConditions w s ↔ ∃ why, decode w = .reserved why := by
  cases hd : decode w with
  | legal i =>
    have wellFormed := (wellFormed_and_encode_of_decode hd).1
    rw [wordConditions_legal hd]
    exact iff_of_false
      (fun met => illegalCommand_notMem_tabledConditions wellFormed (mem_tabledConditions_of_mem_conditions met))
      (by simp)
  | reserved why => simp [wordConditions_reserved hd]

theorem timeout_notMem_wordConditions (w : CmdWord) (s : State) : .timeout ∉ wordConditions w s := by
  cases hd : decode w with
  | legal i =>
    rw [wordConditions_legal hd]
    exact fun met => timeout_notMem_tabledConditions i (mem_tabledConditions_of_mem_conditions met)
  | reserved why => simp [wordConditions_reserved hd]

/-! ### Single commands and `MEAS` -/

theorem conditions_meas (s : State) :
    conditions .meas s =
      conditions .rdrtd s ++ conditions .cvt (scaleToRes Config.cfg (readAndInterpret Config.cfg s)) := rfl

/-- A command that decodes meets the fault exactly when it leaves `FAULT` set (R187). -/
theorem devFault_mem_conditions_iff {i : Instr} (hi : .devFault ∈ tabledConditions i) (s : State) :
    .devFault ∈ conditions i s ↔ (effect Config.cfg i s).fault = true := by
  obtain rfl | rfl | ⟨msb, lsb, rfl⟩ := (devFault_mem_tabledConditions_iff i).mp hi
  · simp [conditions, effect, readAndInterpret_spec]
  · obtain ⟨-, fault, -, -⟩ := effect_meas_results Config.cfg s
    have converted : .devFault ∉ conversionConditions Config.cfg
        (scaleToRes Config.cfg (readAndInterpret Config.cfg s)) := fun met => by
      simpa using dZero_or_range_of_mem_conversionConditions met
    rw [fault, conditions, List.mem_append, mem_decodeConditions_iff]
    simp [converted]
  · simp [conditions, effect, interpret_spec]

theorem dZero_mem_conditions_nrit_iff (s : State) :
    .dZero ∈ conditions .nrit s ↔
      s.it.toNat < iterBound s.br ∧ derivativeAt Config.cfg s.br s.t.toInt = 0 := by
  rw [conditions, mem_passConditions_iff, meetsInPass_dZero_iff]

theorem range_mem_conditions_nrit_iff (s : State) :
    .range ∈ conditions .nrit s ↔
      s.it.toNat < iterBound s.br ∧ MeetsInPass Config.cfg s.br s.res.toInt s.t.toInt .range :=
  mem_passConditions_iff .range Config.cfg s

/-- `MEAS` clamps in its conversion only, and both commands leave the resistance that they converted (R189, R197). -/
theorem range_mem_conditions_of_neg {i : Instr} (hi : i = .cvt ∨ i = .meas) (s : State)
    (hneg : (effect Config.cfg i s).res.toInt < 10000) :
    .range ∈ conditions i s ↔
      ((effect Config.cfg i s).t.toInt < -2000 ∨ 8500 < (effect Config.cfg i s).t.toInt) := by
  have kept (u : State) : (convertRes Config.cfg u).res = u.res := writesOnly_convertRes Config.cfg u .RES (by decide)
  obtain rfl | rfl := hi
  · rw [effect, kept] at hneg
    exact range_mem_conversionConditions_of_neg Config.cfg rfl hneg
  · rw [effect, kept] at hneg
    rw [conditions, List.mem_append, range_mem_conversionConditions_of_neg Config.cfg rfl hneg]
    simp [effect]

/-- Settles O51: each clause is the lemma about its condition, through the equation of each command's effect; the
columns of the table give the commands of each row. -/
theorem conditionsAreThoseOfTheCauseTable : Obligations.ConditionsAreThoseOfTheCauseTable := by
  refine ⟨fun i s t h hi => ?decodes, illegalCommand_mem_wordConditions_iff, timeout_notMem_wordConditions,
    dZero_mem_conditions_nrit_iff, ?passes, fun s => ?clamp, fun i s t h hi hneg => ?conversions, ?parts,
    fun i s met => (devFault_mem_tabledConditions_iff i).mp (mem_tabledConditions_of_mem_conditions met),
    fun i s met => (dZero_mem_tabledConditions_iff i).mp (mem_tabledConditions_of_mem_conditions met)⟩
  case decodes =>
    rw [eq_effect_of_exec h]
    exact devFault_mem_conditions_iff ((devFault_mem_tabledConditions_iff i).mpr hi) s
  case passes =>
    rintro s _ r hr rfl
    exact dZero_mem_conversionConditions_iff Config.cfg hr
  case clamp => rw [conditions, mem_finalConditions_iff, and_iff_right rfl]
  case conversions =>
    obtain rfl := eq_effect_of_exec h
    exact range_mem_conditions_of_neg hi s hneg
  case parts =>
    intro s s1 s2 read scaled
    obtain rfl := eq_effect_of_exec read
    obtain rfl := eq_effect_of_exec scaled
    exact conditions_meas s

/-! ### The clamps of the positive branch (R189, log 12) -/

/-- From the ice point up the linear estimate is not negative (43_rootfinder R152). -/
theorem linearEstimate_cfg_nonneg {r : Int} (hr : |r| ≤ 2147483648) (hpos : 10000 ≤ r) :
    0 ≤ linearEstimate Config.cfg r := by
  rw [linearEstimate_cfg hr]
  exact Int.tdiv_nonneg (by omega) (by decide)

/-- A conversion of the positive branch clamps at the upper end of its estimate or in a pass: the estimate is not
negative, and the last one is inside the range of the final clamp already. -/
theorem range_mem_conversionConditions_of_pos {s : State} {r : Int} (hr : s.res.toInt = r) (hpos : 10000 ≤ r) :
    .range ∈ conversionConditions Config.cfg s ↔
      8500 < linearEstimate Config.cfg r ∨
        ∃ k < 4, MeetsInPass Config.cfg true r (estimateAfter Config.cfg r k) .range := by
  have size : |r| ≤ 2147483648 := hr ▸ abs_toInt_res_le s.res
  have branch := (branchOf_eq_true_iff r).mpr hpos
  have bound : iterBound true = 4 := rfl
  have low := linearEstimate_cfg_nonneg size hpos
  obtain ⟨-, last, -, -⟩ := convertRes_results Config.cfg hr
  obtain ⟨lo, hi⟩ := posRange_estimateAfter size hpos (iterBound (branchOf r))
  have final : ¬ ((convertRes Config.cfg s).t.toInt < -2000 ∨ 8500 < (convertRes Config.cfg s).t.toInt) := by
    rw [last]
    omega
  rw [mem_conversionConditions_iff .range Config.cfg hr, branch, bound]
  simp only [final, Int.not_lt.mpr low, and_false, or_false, false_or, true_and]

/-- Settles O59: the estimate through its exact quotient, a pass of `NRIT` and the passes of `CVT` through what a pass
meets in the positive branch, and the range column of the cause table. -/
theorem positiveClampsMeetTheRangeCondition : Obligations.PositiveClampsMeetTheRangeCondition := by
  refine ⟨?estimate, ?iteration, ?conversion,
    fun i s met => (range_mem_tabledConditions_iff i).mp (mem_tabledConditions_of_mem_conditions met)⟩
  case estimate =>
    rintro s _ rfl
    rw [conditions, mem_estimateConditions_iff, linearEstimate_cfg (abs_toInt_res_le s.res), and_iff_right rfl]
  case iteration =>
    rintro s _ _ rfl rfl
    rw [range_mem_conditions_nrit_iff, meetsInPass_range_iff, and_left_comm]
    exact and_congr_right fun pos => by rw [pos]; rfl
  case conversion =>
    rintro s r _ u hr hpos rfl hu
    have size : |r| ≤ 2147483648 := hr ▸ abs_toInt_res_le s.res
    have start (k : Nat) : estimateAfter Config.cfg r k = u k := by
      rw [← hu, ← estimate_cfg_pos size, estimateAfter, (branchOf_eq_true_iff r).mpr hpos]
    rw [conditions, range_mem_conversionConditions_of_pos hr hpos, linearEstimate_cfg size]
    simp only [start, meetsInPass_range_iff, true_and]
    rfl

end Sys2Proof.Machine
end

section
/-!
PROOFS. The resets and the exchanges (70_reset_and_hazards): what the reset pin keeps of the model's record of the ports
(R215), and how many bytes each command exchanges with the device (R230).
-/
namespace Sys2Proof.Machine

/-! ### The reset pin and the ports (R215, log 5) -/

/-- The pin leaves the reset state but for the five fields that record what passes over the ports. -/
theorem resetByPin_eq_reset_with_ports (s : State) :
    resetByPin s =
      { State.reset with
        responses := s.responses, pending := s.pending, idx := s.idx, draws := s.draws, xfers := s.xfers } := rfl

theorem dropAction_of_pending {s : State} {a : HostAction} {rest : List HostAction} (hp : s.pending = a :: rest) :
    dropAction s = { s with pending := rest } := by
  rw [dropAction, hp, List.drop_one, List.tail_cons]

/-- Settles O13: the reset state's own fields, and the pin's step, which takes the pin off the pending actions. -/
theorem resetPinKeepsThePortRecords : Obligations.ResetPinKeepsThePortRecords := by
  refine ⟨⟨rfl, rfl, rfl, rfl, rfl⟩, fun s rest hp => ?pin⟩
  rw [step_resetPin hp, dropAction_of_pending hp, resetByPin_eq_reset_with_ports]

/-! ### The exchanges of each command (R230, log 1) -/

/-- From `s` to `t` the device answers `n` exchanges, each with the environment's next byte (20_memory R53). -/
def MakesExchanges (n : Nat) (s t : State) : Prop :=
  t.xfers = s.xfers + n ∧ t.draws = s.draws.drop n

theorem MakesExchanges.trans {m n : Nat} {s t u : State} (h : MakesExchanges m s t) (h' : MakesExchanges n t u) :
    MakesExchanges (m + n) s u := by
  obtain ⟨xfers, draws⟩ := h
  obtain ⟨xfers', draws'⟩ := h'
  exact ⟨by rw [xfers', xfers, Nat.add_assoc], by rw [draws', draws, List.drop_drop]⟩

theorem makesExchanges_cfgWrite (c : Config.Cfg) (s : State) : MakesExchanges 2 s (cfgWrite c s) := by
  rw [cfgWrite_spec]
  exact ⟨rfl, rfl⟩

/-- Only the clear sequence of a fault exchanges (40_decoder R91, 60_exceptions R198). -/
theorem makesExchanges_interpret (c : Config.Cfg) (msb lsb : Byte) (s : State) :
    MakesExchanges (if lsb.getLsbD 0 then 2 else 0) s (interpret c msb lsb s) := by
  rw [interpret_spec]
  exact ⟨rfl, rfl⟩

theorem makesExchanges_readAndInterpret (c : Config.Cfg) (s : State) :
    MakesExchanges (if (rtdLsb s).getLsbD 0 then 5 else 3) s (readAndInterpret c s) := by
  rw [readAndInterpret_spec]
  exact ⟨rfl, rfl⟩

theorem makesExchanges_scaleToRes (c : Config.Cfg) (s : State) : MakesExchanges 0 s (scaleToRes c s) := ⟨rfl, rfl⟩

theorem makesExchanges_iterate (c : Config.Cfg) (s : State) : MakesExchanges 0 s (iterate c s) := by
  rw [iterate_frame]
  exact ⟨rfl, rfl⟩

theorem makesExchanges_convertRes (c : Config.Cfg) (s : State) : MakesExchanges 0 s (convertRes c s) := by
  rw [convertRes_frame]
  exact ⟨rfl, rfl⟩

/-- A read answers the host or raises `IllegalCommand`, and asks the device nothing (41_scaler_and_moves R116). -/
theorem makesExchanges_readEffect (reg : BitVec 4) (s : State) : MakesExchanges 0 s (readEffect reg s) := by
  obtain hreg | hreg := Nat.lt_or_ge reg.toNat 8
  · obtain ⟨v, -, he⟩ := readEffect_of_lt hreg s
    rw [he]
    exact ⟨rfl, rfl⟩
  · rw [readEffect_of_ge hreg]
    exact ⟨rfl, rfl⟩

/-- Every command makes its tabled exchanges, under every configuration; those of `MEAS` are those of its read. -/
theorem effect_makesExchanges (c : Config.Cfg) (i : Instr) (s : State) :
    MakesExchanges (exchangeCount i s) s (effect c i s) := by
  cases i with
  | init => exact makesExchanges_cfgWrite c s
  | rdrtd => exact makesExchanges_readAndInterpret c s
  | dec msb lsb => exact makesExchanges_interpret c msb lsb s
  | meas =>
    exact ((makesExchanges_readAndInterpret c s).trans (makesExchanges_scaleToRes c _)).trans
      (makesExchanges_convertRes c _)
  | nrit => exact makesExchanges_iterate c s
  | cvt => exact makesExchanges_convertRes c s
  | rd reg => exact makesExchanges_readEffect reg s
  | scale => exact makesExchanges_scaleToRes c s
  | nop | rst | setr | sett | bsel | est | eval | clmp => exact ⟨rfl, rfl⟩

/-- Settles O50: what a command answers is its effect, which makes the tabled exchanges. -/
theorem commandsMakeTheTabledExchanges : Obligations.CommandsMakeTheTabledExchanges := by
  intro i s t h
  rw [eq_effect_of_exec h]
  exact effect_makesExchanges Config.cfg i s

end Sys2Proof.Machine
end
